-- ==== Sys2Proof/Word.lean ====
section
/-! DEFINITION. The words of the hardware: a byte on the data bus, a 16-bit address (rules R10, R11). -/

namespace Sys2Proof

/-- A byte: the width of A, X, Y, S, P and of the CPU data bus (R10). -/
abbrev Byte := BitVec 8

/-- A 16-bit word: the width of PC and of the CPU address bus (R10). -/
abbrev Word := BitVec 16

/-- The 15-bit VRAM address of the PPU, the loopy registers `v` and `t` (R36). -/
abbrev VAddr := BitVec 15

/-- A 14-bit PPU bus address (R196). -/
abbrev PAddr := BitVec 14

/-- The 64-bit unsigned CPU cycle count (R31), which is also the scheduler's tick (R33). -/
abbrev Tick := BitVec 64

end Sys2Proof
end

