-- ==== Sys2Proof/Syntax.lean ====
section
/-! DEFINITION. The instructions: one constructor per row of the opcode table, that is, per opcode
byte (R71, R72). The decoder is a function of the opcode byte alone; the operand bytes that follow an
opcode are read by the bus cycles of the instruction itself (R12, R185), so they are not part of
this type (they are part of `Assembled`, WellFormed.lean). A name is the mnemonic and the addressing
mode of R69; where a mnemonic has several opcodes of one mode, the opcode ends the name. -/

namespace Sys2Proof

/-- The 256 instructions, in the order of the opcode map (R72). -/
inductive Instr
  -- 0x0x
  | brk | oraIzx | jam02 | sloIzx | nopZp04 | oraZp | aslZp | sloZp
  | php | oraImm | aslAcc | ancImm0B | nopAbs | oraAbs | aslAbs | sloAbs
  -- 0x1x
  | bpl | oraIzy | jam12 | sloIzy | nopZpx14 | oraZpx | aslZpx | sloZpx
  | clc | oraAby | nopImp1A | sloAby | nopAbx1C | oraAbx | aslAbx | sloAbx
  -- 0x2x
  | jsr | andIzx | jam22 | rlaIzx | bitZp | andZp | rolZp | rlaZp
  | plp | andImm | rolAcc | ancImm2B | bitAbs | andAbs | rolAbs | rlaAbs
  -- 0x3x
  | bmi | andIzy | jam32 | rlaIzy | nopZpx34 | andZpx | rolZpx | rlaZpx
  | sec | andAby | nopImp3A | rlaAby | nopAbx3C | andAbx | rolAbx | rlaAbx
  -- 0x4x
  | rti | eorIzx | jam42 | sreIzx | nopZp44 | eorZp | lsrZp | sreZp
  | pha | eorImm | lsrAcc | alrImm | jmpAbs | eorAbs | lsrAbs | sreAbs
  -- 0x5x
  | bvc | eorIzy | jam52 | sreIzy | nopZpx54 | eorZpx | lsrZpx | sreZpx
  | cli | eorAby | nopImp5A | sreAby | nopAbx5C | eorAbx | lsrAbx | sreAbx
  -- 0x6x
  | rts | adcIzx | jam62 | rraIzx | nopZp64 | adcZp | rorZp | rraZp
  | pla | adcImm | rorAcc | arrImm | jmpInd | adcAbs | rorAbs | rraAbs
  -- 0x7x
  | bvs | adcIzy | jam72 | rraIzy | nopZpx74 | adcZpx | rorZpx | rraZpx
  | sei | adcAby | nopImp7A | rraAby | nopAbx7C | adcAbx | rorAbx | rraAbx
  -- 0x8x
  | nopImm80 | staIzx | nopImm82 | saxIzx | styZp | staZp | stxZp | saxZp
  | dey | nopImm89 | txa | aneImm | styAbs | staAbs | stxAbs | saxAbs
  -- 0x9x
  | bcc | staIzy | jam92 | shaIzy | styZpx | staZpx | stxZpy | saxZpy
  | tya | staAby | txs | tasAby | shyAbx | staAbx | shxAby | shaAby
  -- 0xAx
  | ldyImm | ldaIzx | ldxImm | laxIzx | ldyZp | ldaZp | ldxZp | laxZp
  | tay | ldaImm | tax | lxaImm | ldyAbs | ldaAbs | ldxAbs | laxAbs
  -- 0xBx
  | bcs | ldaIzy | jamB2 | laxIzy | ldyZpx | ldaZpx | ldxZpy | laxZpy
  | clv | ldaAby | tsx | lasAby | ldyAbx | ldaAbx | ldxAby | laxAby
  -- 0xCx
  | cpyImm | cmpIzx | nopImmC2 | dcpIzx | cpyZp | cmpZp | decZp | dcpZp
  | iny | cmpImm | dex | sbxImm | cpyAbs | cmpAbs | decAbs | dcpAbs
  -- 0xDx
  | bne | cmpIzy | jamD2 | dcpIzy | nopZpxD4 | cmpZpx | decZpx | dcpZpx
  | cld | cmpAby | nopImpDA | dcpAby | nopAbxDC | cmpAbx | decAbx | dcpAbx
  -- 0xEx
  | cpxImm | sbcIzx | nopImmE2 | isbIzx | cpxZp | sbcZp | incZp | isbZp
  | inx | sbcImm | nop | usbcImm | cpxAbs | sbcAbs | incAbs | isbAbs
  -- 0xFx
  | beq | sbcIzy | jamF2 | isbIzy | nopZpxF4 | sbcZpx | incZpx | isbZpx
  | sed | sbcAby | nopImpFA | isbAby | nopAbxFC | sbcAbx | incAbx | isbAbx
  deriving DecidableEq, Repr

end Sys2Proof
end

