-- ==== Sys2Proof/Machine/OpcodeMap.lean ====
section
/-! DEFINITION. What the opcode map says of each instruction: its mnemonic, addressing mode and access
class (R69, R72, R73), its length (R68) and its cycle count (R229). -/

namespace Sys2Proof

/-- The 77 mnemonics of the opcode map (R72). -/
inductive Mnemonic
  | ADC | ALR | ANC | AND | ANE | ARR | ASL | BCC | BCS | BEQ
  | BIT | BMI | BNE | BPL | BRK | BVC | BVS | CLC | CLD | CLI
  | CLV | CMP | CPX | CPY | DCP | DEC | DEX | DEY | EOR | INC
  | INX | INY | ISB | JAM | JMP | JSR | LAS | LAX | LDA | LDX
  | LDY | LSR | LXA | NOP | ORA | PHA | PHP | PLA | PLP | RLA
  | ROL | ROR | RRA | RTI | RTS | SAX | SBC | SBX | SEC | SED
  | SEI | SHA | SHX | SHY | SLO | SRE | STA | STX | STY | TAS
  | TAX | TAY | TSX | TXA | TXS | TYA | USBC
  deriving DecidableEq, Repr

/-- The addressing modes (R69). -/
inductive Mode
  | imp | acc | imm | zp | zpx | zpy | abs | abx | aby | izx | izy | rel | ind
  deriving DecidableEq, Repr

/-- The access classes (R73). -/
inductive AccessClass
  | read | write | rmw | implied | branch | jump | stack
  deriving DecidableEq, Repr

/-- The operand bytes of a mode (R68, R69). -/
def Mode.operandCount : Mode → Nat
  | .imp | .acc => 0
  | .imm | .zp | .zpx | .zpy | .izx | .izy | .rel => 1
  | .abs | .abx | .aby | .ind => 2

/-- The mnemonic (R72). -/
def Instr.mnemonic : Instr → Mnemonic
  | .adcIzx | .adcZp | .adcImm | .adcAbs | .adcIzy | .adcZpx | .adcAby | .adcAbx => .ADC
  | .alrImm => .ALR
  | .ancImm0B | .ancImm2B => .ANC
  | .andIzx | .andZp | .andImm | .andAbs | .andIzy | .andZpx | .andAby | .andAbx => .AND
  | .aneImm => .ANE
  | .arrImm => .ARR
  | .aslZp | .aslAcc | .aslAbs | .aslZpx | .aslAbx => .ASL
  | .bcc => .BCC
  | .bcs => .BCS
  | .beq => .BEQ
  | .bitZp | .bitAbs => .BIT
  | .bmi => .BMI
  | .bne => .BNE
  | .bpl => .BPL
  | .brk => .BRK
  | .bvc => .BVC
  | .bvs => .BVS
  | .clc => .CLC
  | .cld => .CLD
  | .cli => .CLI
  | .clv => .CLV
  | .cmpIzx | .cmpZp | .cmpImm | .cmpAbs | .cmpIzy | .cmpZpx | .cmpAby | .cmpAbx => .CMP
  | .cpxImm | .cpxZp | .cpxAbs => .CPX
  | .cpyImm | .cpyZp | .cpyAbs => .CPY
  | .dcpIzx | .dcpZp | .dcpAbs | .dcpIzy | .dcpZpx | .dcpAby | .dcpAbx => .DCP
  | .decZp | .decAbs | .decZpx | .decAbx => .DEC
  | .dex => .DEX
  | .dey => .DEY
  | .eorIzx | .eorZp | .eorImm | .eorAbs | .eorIzy | .eorZpx | .eorAby | .eorAbx => .EOR
  | .incZp | .incAbs | .incZpx | .incAbx => .INC
  | .inx => .INX
  | .iny => .INY
  | .isbIzx | .isbZp | .isbAbs | .isbIzy | .isbZpx | .isbAby | .isbAbx => .ISB
  | .jam02 | .jam12 | .jam22 | .jam32 | .jam42 | .jam52 | .jam62 | .jam72 | .jam92 | .jamB2 | .jamD2
    | .jamF2 => .JAM
  | .jmpAbs | .jmpInd => .JMP
  | .jsr => .JSR
  | .lasAby => .LAS
  | .laxIzx | .laxZp | .laxAbs | .laxIzy | .laxZpy | .laxAby => .LAX
  | .ldaIzx | .ldaZp | .ldaImm | .ldaAbs | .ldaIzy | .ldaZpx | .ldaAby | .ldaAbx => .LDA
  | .ldxImm | .ldxZp | .ldxAbs | .ldxZpy | .ldxAby => .LDX
  | .ldyImm | .ldyZp | .ldyAbs | .ldyZpx | .ldyAbx => .LDY
  | .lsrZp | .lsrAcc | .lsrAbs | .lsrZpx | .lsrAbx => .LSR
  | .lxaImm => .LXA
  | .nopZp04 | .nopAbs | .nopZpx14 | .nopImp1A | .nopAbx1C | .nopZpx34 | .nopImp3A | .nopAbx3C
    | .nopZp44 | .nopZpx54 | .nopImp5A | .nopAbx5C | .nopZp64 | .nopZpx74 | .nopImp7A | .nopAbx7C
    | .nopImm80 | .nopImm82 | .nopImm89 | .nopImmC2 | .nopZpxD4 | .nopImpDA | .nopAbxDC | .nopImmE2
    | .nop | .nopZpxF4 | .nopImpFA | .nopAbxFC => .NOP
  | .oraIzx | .oraZp | .oraImm | .oraAbs | .oraIzy | .oraZpx | .oraAby | .oraAbx => .ORA
  | .pha => .PHA
  | .php => .PHP
  | .pla => .PLA
  | .plp => .PLP
  | .rlaIzx | .rlaZp | .rlaAbs | .rlaIzy | .rlaZpx | .rlaAby | .rlaAbx => .RLA
  | .rolZp | .rolAcc | .rolAbs | .rolZpx | .rolAbx => .ROL
  | .rorZp | .rorAcc | .rorAbs | .rorZpx | .rorAbx => .ROR
  | .rraIzx | .rraZp | .rraAbs | .rraIzy | .rraZpx | .rraAby | .rraAbx => .RRA
  | .rti => .RTI
  | .rts => .RTS
  | .saxIzx | .saxZp | .saxAbs | .saxZpy => .SAX
  | .sbcIzx | .sbcZp | .sbcImm | .sbcAbs | .sbcIzy | .sbcZpx | .sbcAby | .sbcAbx => .SBC
  | .sbxImm => .SBX
  | .sec => .SEC
  | .sed => .SED
  | .sei => .SEI
  | .shaIzy | .shaAby => .SHA
  | .shxAby => .SHX
  | .shyAbx => .SHY
  | .sloIzx | .sloZp | .sloAbs | .sloIzy | .sloZpx | .sloAby | .sloAbx => .SLO
  | .sreIzx | .sreZp | .sreAbs | .sreIzy | .sreZpx | .sreAby | .sreAbx => .SRE
  | .staIzx | .staZp | .staAbs | .staIzy | .staZpx | .staAby | .staAbx => .STA
  | .stxZp | .stxAbs | .stxZpy => .STX
  | .styZp | .styAbs | .styZpx => .STY
  | .tasAby => .TAS
  | .tax => .TAX
  | .tay => .TAY
  | .tsx => .TSX
  | .txa => .TXA
  | .txs => .TXS
  | .tya => .TYA
  | .usbcImm => .USBC

/-- The addressing mode (R72). -/
def Instr.mode : Instr → Mode
  | .nopAbs | .oraAbs | .aslAbs | .sloAbs | .jsr | .bitAbs | .andAbs | .rolAbs | .rlaAbs | .jmpAbs
    | .eorAbs | .lsrAbs | .sreAbs | .adcAbs | .rorAbs | .rraAbs | .styAbs | .staAbs | .stxAbs
    | .saxAbs | .ldyAbs | .ldaAbs | .ldxAbs | .laxAbs | .cpyAbs | .cmpAbs | .decAbs | .dcpAbs
    | .cpxAbs | .sbcAbs | .incAbs | .isbAbs => .abs
  | .nopAbx1C | .oraAbx | .aslAbx | .sloAbx | .nopAbx3C | .andAbx | .rolAbx | .rlaAbx | .nopAbx5C
    | .eorAbx | .lsrAbx | .sreAbx | .nopAbx7C | .adcAbx | .rorAbx | .rraAbx | .shyAbx | .staAbx
    | .ldyAbx | .ldaAbx | .nopAbxDC | .cmpAbx | .decAbx | .dcpAbx | .nopAbxFC | .sbcAbx | .incAbx
    | .isbAbx => .abx
  | .oraAby | .sloAby | .andAby | .rlaAby | .eorAby | .sreAby | .adcAby | .rraAby | .staAby
    | .tasAby | .shxAby | .shaAby | .ldaAby | .lasAby | .ldxAby | .laxAby | .cmpAby | .dcpAby
    | .sbcAby | .isbAby => .aby
  | .aslAcc | .rolAcc | .lsrAcc | .rorAcc => .acc
  | .oraImm | .ancImm0B | .andImm | .ancImm2B | .eorImm | .alrImm | .adcImm | .arrImm | .nopImm80
    | .nopImm82 | .nopImm89 | .aneImm | .ldyImm | .ldxImm | .ldaImm | .lxaImm | .cpyImm | .nopImmC2
    | .cmpImm | .sbxImm | .cpxImm | .nopImmE2 | .sbcImm | .usbcImm => .imm
  | .brk | .jam02 | .php | .jam12 | .clc | .nopImp1A | .jam22 | .plp | .jam32 | .sec | .nopImp3A
    | .rti | .jam42 | .pha | .jam52 | .cli | .nopImp5A | .rts | .jam62 | .pla | .jam72 | .sei
    | .nopImp7A | .dey | .txa | .jam92 | .tya | .txs | .tay | .tax | .jamB2 | .clv | .tsx | .iny
    | .dex | .jamD2 | .cld | .nopImpDA | .inx | .nop | .jamF2 | .sed | .nopImpFA => .imp
  | .jmpInd => .ind
  | .oraIzx | .sloIzx | .andIzx | .rlaIzx | .eorIzx | .sreIzx | .adcIzx | .rraIzx | .staIzx
    | .saxIzx | .ldaIzx | .laxIzx | .cmpIzx | .dcpIzx | .sbcIzx | .isbIzx => .izx
  | .oraIzy | .sloIzy | .andIzy | .rlaIzy | .eorIzy | .sreIzy | .adcIzy | .rraIzy | .staIzy
    | .shaIzy | .ldaIzy | .laxIzy | .cmpIzy | .dcpIzy | .sbcIzy | .isbIzy => .izy
  | .bpl | .bmi | .bvc | .bvs | .bcc | .bcs | .bne | .beq => .rel
  | .nopZp04 | .oraZp | .aslZp | .sloZp | .bitZp | .andZp | .rolZp | .rlaZp | .nopZp44 | .eorZp
    | .lsrZp | .sreZp | .nopZp64 | .adcZp | .rorZp | .rraZp | .styZp | .staZp | .stxZp | .saxZp
    | .ldyZp | .ldaZp | .ldxZp | .laxZp | .cpyZp | .cmpZp | .decZp | .dcpZp | .cpxZp | .sbcZp
    | .incZp | .isbZp => .zp
  | .nopZpx14 | .oraZpx | .aslZpx | .sloZpx | .nopZpx34 | .andZpx | .rolZpx | .rlaZpx | .nopZpx54
    | .eorZpx | .lsrZpx | .sreZpx | .nopZpx74 | .adcZpx | .rorZpx | .rraZpx | .styZpx | .staZpx
    | .ldyZpx | .ldaZpx | .nopZpxD4 | .cmpZpx | .decZpx | .dcpZpx | .nopZpxF4 | .sbcZpx | .incZpx
    | .isbZpx => .zpx
  | .stxZpy | .saxZpy | .ldxZpy | .laxZpy => .zpy

/-- The access class (R73). -/
def Instr.accessClass : Instr → AccessClass
  | .bpl | .bmi | .bvc | .bvs | .bcc | .bcs | .bne | .beq => .branch
  | .jam02 | .aslAcc | .jam12 | .clc | .nopImp1A | .jam22 | .rolAcc | .jam32 | .sec | .nopImp3A
    | .jam42 | .lsrAcc | .jam52 | .cli | .nopImp5A | .jam62 | .rorAcc | .jam72 | .sei | .nopImp7A
    | .dey | .txa | .jam92 | .tya | .txs | .tay | .tax | .jamB2 | .clv | .tsx | .iny | .dex | .jamD2
    | .cld | .nopImpDA | .inx | .nop | .jamF2 | .sed | .nopImpFA => .implied
  | .jmpAbs | .jmpInd => .jump
  | .oraIzx | .nopZp04 | .oraZp | .oraImm | .ancImm0B | .nopAbs | .oraAbs | .oraIzy | .nopZpx14
    | .oraZpx | .oraAby | .nopAbx1C | .oraAbx | .andIzx | .bitZp | .andZp | .andImm | .ancImm2B
    | .bitAbs | .andAbs | .andIzy | .nopZpx34 | .andZpx | .andAby | .nopAbx3C | .andAbx | .eorIzx
    | .nopZp44 | .eorZp | .eorImm | .alrImm | .eorAbs | .eorIzy | .nopZpx54 | .eorZpx | .eorAby
    | .nopAbx5C | .eorAbx | .adcIzx | .nopZp64 | .adcZp | .adcImm | .arrImm | .adcAbs | .adcIzy
    | .nopZpx74 | .adcZpx | .adcAby | .nopAbx7C | .adcAbx | .nopImm80 | .nopImm82 | .nopImm89
    | .aneImm | .ldyImm | .ldaIzx | .ldxImm | .laxIzx | .ldyZp | .ldaZp | .ldxZp | .laxZp | .ldaImm
    | .lxaImm | .ldyAbs | .ldaAbs | .ldxAbs | .laxAbs | .ldaIzy | .laxIzy | .ldyZpx | .ldaZpx
    | .ldxZpy | .laxZpy | .ldaAby | .lasAby | .ldyAbx | .ldaAbx | .ldxAby | .laxAby | .cpyImm
    | .cmpIzx | .nopImmC2 | .cpyZp | .cmpZp | .cmpImm | .sbxImm | .cpyAbs | .cmpAbs | .cmpIzy
    | .nopZpxD4 | .cmpZpx | .cmpAby | .nopAbxDC | .cmpAbx | .cpxImm | .sbcIzx | .nopImmE2 | .cpxZp
    | .sbcZp | .sbcImm | .usbcImm | .cpxAbs | .sbcAbs | .sbcIzy | .nopZpxF4 | .sbcZpx | .sbcAby
    | .nopAbxFC | .sbcAbx => .read
  | .sloIzx | .aslZp | .sloZp | .aslAbs | .sloAbs | .sloIzy | .aslZpx | .sloZpx | .sloAby | .aslAbx
    | .sloAbx | .rlaIzx | .rolZp | .rlaZp | .rolAbs | .rlaAbs | .rlaIzy | .rolZpx | .rlaZpx
    | .rlaAby | .rolAbx | .rlaAbx | .sreIzx | .lsrZp | .sreZp | .lsrAbs | .sreAbs | .sreIzy
    | .lsrZpx | .sreZpx | .sreAby | .lsrAbx | .sreAbx | .rraIzx | .rorZp | .rraZp | .rorAbs
    | .rraAbs | .rraIzy | .rorZpx | .rraZpx | .rraAby | .rorAbx | .rraAbx | .dcpIzx | .decZp
    | .dcpZp | .decAbs | .dcpAbs | .dcpIzy | .decZpx | .dcpZpx | .dcpAby | .decAbx | .dcpAbx
    | .isbIzx | .incZp | .isbZp | .incAbs | .isbAbs | .isbIzy | .incZpx | .isbZpx | .isbAby
    | .incAbx | .isbAbx => .rmw
  | .brk | .php | .jsr | .plp | .rti | .pha | .rts | .pla => .stack
  | .staIzx | .saxIzx | .styZp | .staZp | .stxZp | .saxZp | .styAbs | .staAbs | .stxAbs | .saxAbs
    | .staIzy | .shaIzy | .styZpx | .staZpx | .stxZpy | .saxZpy | .staAby | .tasAby | .shyAbx
    | .staAbx | .shxAby | .shaAby => .write

/-- The operand bytes that follow the opcode. BRK counts as one byte long; the padding byte it reads
and skips is not an operand (R68, R143). -/
def Instr.operandCount (i : Instr) : Nat := i.mode.operandCount

/-- The cycle count with no page cross, no branch taken and no DMA (R229). -/
def Instr.baseCycles : Instr → Nat
  | .jam02 | .oraImm | .aslAcc | .ancImm0B | .bpl | .jam12 | .clc | .nopImp1A | .jam22 | .andImm
    | .rolAcc | .ancImm2B | .bmi | .jam32 | .sec | .nopImp3A | .jam42 | .eorImm | .lsrAcc | .alrImm
    | .bvc | .jam52 | .cli | .nopImp5A | .jam62 | .adcImm | .rorAcc | .arrImm | .bvs | .jam72 | .sei
    | .nopImp7A | .nopImm80 | .nopImm82 | .dey | .nopImm89 | .txa | .aneImm | .bcc | .jam92 | .tya
    | .txs | .ldyImm | .ldxImm | .tay | .ldaImm | .tax | .lxaImm | .bcs | .jamB2 | .clv | .tsx
    | .cpyImm | .nopImmC2 | .iny | .cmpImm | .dex | .sbxImm | .bne | .jamD2 | .cld | .nopImpDA
    | .cpxImm | .nopImmE2 | .inx | .sbcImm | .nop | .usbcImm | .beq | .jamF2 | .sed | .nopImpFA => 2
  | .nopZp04 | .oraZp | .php | .bitZp | .andZp | .nopZp44 | .eorZp | .pha | .jmpAbs | .nopZp64
    | .adcZp | .styZp | .staZp | .stxZp | .saxZp | .ldyZp | .ldaZp | .ldxZp | .laxZp | .cpyZp
    | .cmpZp | .cpxZp | .sbcZp => 3
  | .nopAbs | .oraAbs | .nopZpx14 | .oraZpx | .oraAby | .nopAbx1C | .oraAbx | .plp | .bitAbs
    | .andAbs | .nopZpx34 | .andZpx | .andAby | .nopAbx3C | .andAbx | .eorAbs | .nopZpx54 | .eorZpx
    | .eorAby | .nopAbx5C | .eorAbx | .pla | .adcAbs | .nopZpx74 | .adcZpx | .adcAby | .nopAbx7C
    | .adcAbx | .styAbs | .staAbs | .stxAbs | .saxAbs | .styZpx | .staZpx | .stxZpy | .saxZpy
    | .ldyAbs | .ldaAbs | .ldxAbs | .laxAbs | .ldyZpx | .ldaZpx | .ldxZpy | .laxZpy | .ldaAby
    | .lasAby | .ldyAbx | .ldaAbx | .ldxAby | .laxAby | .cpyAbs | .cmpAbs | .nopZpxD4 | .cmpZpx
    | .cmpAby | .nopAbxDC | .cmpAbx | .cpxAbs | .sbcAbs | .nopZpxF4 | .sbcZpx | .sbcAby | .nopAbxFC
    | .sbcAbx => 4
  | .aslZp | .sloZp | .oraIzy | .rolZp | .rlaZp | .andIzy | .lsrZp | .sreZp | .eorIzy | .rorZp
    | .rraZp | .jmpInd | .adcIzy | .staAby | .tasAby | .shyAbx | .staAbx | .shxAby | .shaAby
    | .ldaIzy | .laxIzy | .decZp | .dcpZp | .cmpIzy | .incZp | .isbZp | .sbcIzy => 5
  | .oraIzx | .aslAbs | .sloAbs | .aslZpx | .sloZpx | .jsr | .andIzx | .rolAbs | .rlaAbs | .rolZpx
    | .rlaZpx | .rti | .eorIzx | .lsrAbs | .sreAbs | .lsrZpx | .sreZpx | .rts | .adcIzx | .rorAbs
    | .rraAbs | .rorZpx | .rraZpx | .staIzx | .saxIzx | .staIzy | .shaIzy | .ldaIzx | .laxIzx
    | .cmpIzx | .decAbs | .dcpAbs | .decZpx | .dcpZpx | .sbcIzx | .incAbs | .isbAbs | .incZpx
    | .isbZpx => 6
  | .brk | .sloAby | .aslAbx | .sloAbx | .rlaAby | .rolAbx | .rlaAbx | .sreAby | .lsrAbx | .sreAbx
    | .rraAby | .rorAbx | .rraAbx | .dcpAby | .decAbx | .dcpAbx | .isbAby | .incAbx | .isbAbx => 7
  | .sloIzx | .sloIzy | .rlaIzx | .rlaIzy | .sreIzx | .sreIzy | .rraIzx | .rraIzy | .dcpIzx
    | .dcpIzy | .isbIzx | .isbIzy => 8

end Sys2Proof
end

