-- ==== Sys2Proof/WellFormed.lean ====
section
/-! DEFINITION. An instruction as it stands in memory, and when it is well formed. Every term of
`Instr` is an instruction (R71, R74); what can be ill formed is the number of operand bytes. -/

namespace Sys2Proof

/-- An instruction with the operand bytes that follow its opcode, lowest address first (R67). -/
structure Assembled where
  instr    : Instr
  operands : List Byte
  deriving DecidableEq, Repr

/-- The operand bytes are as many as the addressing mode takes (R68). -/
def Assembled.wellFormed (a : Assembled) : Bool := a.operands.length == a.instr.operandCount

end Sys2Proof
end

