-- ==== Sys2Proof/Decode.lean ====
section
/-! DEFINITION. The decoder, total on any bytes (R67 to R72), and the encoder. -/

namespace Sys2Proof

/-! ## Opcode byte to instruction -/

/-- The opcode map (R72): row `hi`, column `lo` is opcode `hi * 16 + lo`. -/
def opcodeRow0 : List Instr :=
  [.brk, .oraIzx, .jam02, .sloIzx, .nopZp04, .oraZp, .aslZp, .sloZp,
   .php, .oraImm, .aslAcc, .ancImm0B, .nopAbs, .oraAbs, .aslAbs, .sloAbs]

def opcodeRow1 : List Instr :=
  [.bpl, .oraIzy, .jam12, .sloIzy, .nopZpx14, .oraZpx, .aslZpx, .sloZpx,
   .clc, .oraAby, .nopImp1A, .sloAby, .nopAbx1C, .oraAbx, .aslAbx, .sloAbx]

def opcodeRow2 : List Instr :=
  [.jsr, .andIzx, .jam22, .rlaIzx, .bitZp, .andZp, .rolZp, .rlaZp,
   .plp, .andImm, .rolAcc, .ancImm2B, .bitAbs, .andAbs, .rolAbs, .rlaAbs]

def opcodeRow3 : List Instr :=
  [.bmi, .andIzy, .jam32, .rlaIzy, .nopZpx34, .andZpx, .rolZpx, .rlaZpx,
   .sec, .andAby, .nopImp3A, .rlaAby, .nopAbx3C, .andAbx, .rolAbx, .rlaAbx]

def opcodeRow4 : List Instr :=
  [.rti, .eorIzx, .jam42, .sreIzx, .nopZp44, .eorZp, .lsrZp, .sreZp,
   .pha, .eorImm, .lsrAcc, .alrImm, .jmpAbs, .eorAbs, .lsrAbs, .sreAbs]

def opcodeRow5 : List Instr :=
  [.bvc, .eorIzy, .jam52, .sreIzy, .nopZpx54, .eorZpx, .lsrZpx, .sreZpx,
   .cli, .eorAby, .nopImp5A, .sreAby, .nopAbx5C, .eorAbx, .lsrAbx, .sreAbx]

def opcodeRow6 : List Instr :=
  [.rts, .adcIzx, .jam62, .rraIzx, .nopZp64, .adcZp, .rorZp, .rraZp,
   .pla, .adcImm, .rorAcc, .arrImm, .jmpInd, .adcAbs, .rorAbs, .rraAbs]

def opcodeRow7 : List Instr :=
  [.bvs, .adcIzy, .jam72, .rraIzy, .nopZpx74, .adcZpx, .rorZpx, .rraZpx,
   .sei, .adcAby, .nopImp7A, .rraAby, .nopAbx7C, .adcAbx, .rorAbx, .rraAbx]

def opcodeRow8 : List Instr :=
  [.nopImm80, .staIzx, .nopImm82, .saxIzx, .styZp, .staZp, .stxZp, .saxZp,
   .dey, .nopImm89, .txa, .aneImm, .styAbs, .staAbs, .stxAbs, .saxAbs]

def opcodeRow9 : List Instr :=
  [.bcc, .staIzy, .jam92, .shaIzy, .styZpx, .staZpx, .stxZpy, .saxZpy,
   .tya, .staAby, .txs, .tasAby, .shyAbx, .staAbx, .shxAby, .shaAby]

def opcodeRowA : List Instr :=
  [.ldyImm, .ldaIzx, .ldxImm, .laxIzx, .ldyZp, .ldaZp, .ldxZp, .laxZp,
   .tay, .ldaImm, .tax, .lxaImm, .ldyAbs, .ldaAbs, .ldxAbs, .laxAbs]

def opcodeRowB : List Instr :=
  [.bcs, .ldaIzy, .jamB2, .laxIzy, .ldyZpx, .ldaZpx, .ldxZpy, .laxZpy,
   .clv, .ldaAby, .tsx, .lasAby, .ldyAbx, .ldaAbx, .ldxAby, .laxAby]

def opcodeRowC : List Instr :=
  [.cpyImm, .cmpIzx, .nopImmC2, .dcpIzx, .cpyZp, .cmpZp, .decZp, .dcpZp,
   .iny, .cmpImm, .dex, .sbxImm, .cpyAbs, .cmpAbs, .decAbs, .dcpAbs]

def opcodeRowD : List Instr :=
  [.bne, .cmpIzy, .jamD2, .dcpIzy, .nopZpxD4, .cmpZpx, .decZpx, .dcpZpx,
   .cld, .cmpAby, .nopImpDA, .dcpAby, .nopAbxDC, .cmpAbx, .decAbx, .dcpAbx]

def opcodeRowE : List Instr :=
  [.cpxImm, .sbcIzx, .nopImmE2, .isbIzx, .cpxZp, .sbcZp, .incZp, .isbZp,
   .inx, .sbcImm, .nop, .usbcImm, .cpxAbs, .sbcAbs, .incAbs, .isbAbs]

def opcodeRowF : List Instr :=
  [.beq, .sbcIzy, .jamF2, .isbIzy, .nopZpxF4, .sbcZpx, .incZpx, .isbZpx,
   .sed, .sbcAby, .nopImpFA, .isbAby, .nopAbxFC, .sbcAbx, .incAbx, .isbAbx]

/-- The sixteen rows of the opcode map. -/
def opcodeMap : List (List Instr) :=
  [opcodeRow0, opcodeRow1, opcodeRow2, opcodeRow3, opcodeRow4, opcodeRow5, opcodeRow6, opcodeRow7,
   opcodeRow8, opcodeRow9, opcodeRowA, opcodeRowB, opcodeRowC, opcodeRowD, opcodeRowE, opcodeRowF]

/-- The instruction an opcode byte selects (R71): total, no byte is illegal. The default is never
taken, since the map has sixteen rows of sixteen. -/
def decodeOpcode (b : Byte) : Instr :=
  ((opcodeMap.getD (b.toNat / 16) []).getD (b.toNat % 16) .nop)

/-- Why a byte list is no instruction. No opcode is illegal (R74); a list can only be too short. -/
inductive DecodeError
  /-- no byte at all -/
  | noOpcode
  /-- fewer bytes than the opcode asks for (R68) -/
  | operandsMissing
  deriving DecidableEq, Repr

/-- Decode the instruction at the head of a byte list: the opcode, then its operand bytes (R67), and
the bytes left over. -/
def decode : List Byte → Except DecodeError (Assembled × List Byte)
  | [] => .error .noOpcode
  | b :: bs =>
    if bs.length < (decodeOpcode b).operandCount then .error .operandsMissing
    else .ok (⟨decodeOpcode b, bs.take (decodeOpcode b).operandCount⟩, bs.drop (decodeOpcode b).operandCount)

/-- The bytes of an instruction word whose bit 0 is the least significant bit of its first byte. -/
def wordBytes : Nat → Nat → List Byte
  | 0, _ => []
  | n + 1, w => BitVec.ofNat 8 w :: wordBytes n (w / 0x100)

/-- The longest instruction, in bytes (R68). -/
def maxInstrBytes : Nat := 3

/-- The bytes of a table word, zero above its `nbits`, up to the longest instruction. -/
def tableBytes (nbits w : Nat) : List Byte := wordBytes maxInstrBytes (w % 2 ^ nbits)

/-- The instruction the decoder reads from a word numbered as the opcode table numbers it. -/
def decodeTableWord (nbits w : Nat) : Option Instr :=
  match decode (tableBytes nbits w) with
  | .ok (a, _) => some a.instr
  | .error _ => none

/-! ## Instruction to bytes -/

/-- The opcode byte of an instruction, from the Encoding entry of its rule (R92 to R179). -/
def Instr.opcode : Instr → Byte
  -- R92 LDA
  | .ldaIzx => 0xA1#8 | .ldaZp => 0xA5#8 | .ldaImm => 0xA9#8 | .ldaAbs => 0xAD#8
  | .ldaIzy => 0xB1#8 | .ldaZpx => 0xB5#8 | .ldaAby => 0xB9#8 | .ldaAbx => 0xBD#8
  -- R93 LDX
  | .ldxImm => 0xA2#8 | .ldxZp => 0xA6#8 | .ldxAbs => 0xAE#8 | .ldxZpy => 0xB6#8
  | .ldxAby => 0xBE#8
  -- R94 LDY
  | .ldyImm => 0xA0#8 | .ldyZp => 0xA4#8 | .ldyAbs => 0xAC#8 | .ldyZpx => 0xB4#8
  | .ldyAbx => 0xBC#8
  -- R95 STA
  | .staIzx => 0x81#8 | .staZp => 0x85#8 | .staAbs => 0x8D#8 | .staIzy => 0x91#8
  | .staZpx => 0x95#8 | .staAby => 0x99#8 | .staAbx => 0x9D#8
  -- R96 STX
  | .stxZp => 0x86#8 | .stxAbs => 0x8E#8 | .stxZpy => 0x96#8
  -- R97 STY
  | .styZp => 0x84#8 | .styAbs => 0x8C#8 | .styZpx => 0x94#8
  -- R98 TAX
  | .tax => 0xAA#8
  -- R99 TAY
  | .tay => 0xA8#8
  -- R100 TXA
  | .txa => 0x8A#8
  -- R101 TYA
  | .tya => 0x98#8
  -- R102 TSX
  | .tsx => 0xBA#8
  -- R103 TXS
  | .txs => 0x9A#8
  -- R111 ADC
  | .adcIzx => 0x61#8 | .adcZp => 0x65#8 | .adcImm => 0x69#8 | .adcAbs => 0x6D#8
  | .adcIzy => 0x71#8 | .adcZpx => 0x75#8 | .adcAby => 0x79#8 | .adcAbx => 0x7D#8
  -- R112 SBC
  | .sbcIzx => 0xE1#8 | .sbcZp => 0xE5#8 | .sbcImm => 0xE9#8 | .sbcAbs => 0xED#8
  | .sbcIzy => 0xF1#8 | .sbcZpx => 0xF5#8 | .sbcAby => 0xF9#8 | .sbcAbx => 0xFD#8
  -- R113 AND
  | .andIzx => 0x21#8 | .andZp => 0x25#8 | .andImm => 0x29#8 | .andAbs => 0x2D#8
  | .andIzy => 0x31#8 | .andZpx => 0x35#8 | .andAby => 0x39#8 | .andAbx => 0x3D#8
  -- R114 ORA
  | .oraIzx => 0x01#8 | .oraZp => 0x05#8 | .oraImm => 0x09#8 | .oraAbs => 0x0D#8
  | .oraIzy => 0x11#8 | .oraZpx => 0x15#8 | .oraAby => 0x19#8 | .oraAbx => 0x1D#8
  -- R115 EOR
  | .eorIzx => 0x41#8 | .eorZp => 0x45#8 | .eorImm => 0x49#8 | .eorAbs => 0x4D#8
  | .eorIzy => 0x51#8 | .eorZpx => 0x55#8 | .eorAby => 0x59#8 | .eorAbx => 0x5D#8
  -- R116 BIT
  | .bitZp => 0x24#8 | .bitAbs => 0x2C#8
  -- R117 CMP
  | .cmpIzx => 0xC1#8 | .cmpZp => 0xC5#8 | .cmpImm => 0xC9#8 | .cmpAbs => 0xCD#8
  | .cmpIzy => 0xD1#8 | .cmpZpx => 0xD5#8 | .cmpAby => 0xD9#8 | .cmpAbx => 0xDD#8
  -- R118 CPX
  | .cpxImm => 0xE0#8 | .cpxZp => 0xE4#8 | .cpxAbs => 0xEC#8
  -- R119 CPY
  | .cpyImm => 0xC0#8 | .cpyZp => 0xC4#8 | .cpyAbs => 0xCC#8
  -- R120 ASL
  | .aslZp => 0x06#8 | .aslAcc => 0x0A#8 | .aslAbs => 0x0E#8 | .aslZpx => 0x16#8
  | .aslAbx => 0x1E#8
  -- R121 LSR
  | .lsrZp => 0x46#8 | .lsrAcc => 0x4A#8 | .lsrAbs => 0x4E#8 | .lsrZpx => 0x56#8
  | .lsrAbx => 0x5E#8
  -- R122 ROL
  | .rolZp => 0x26#8 | .rolAcc => 0x2A#8 | .rolAbs => 0x2E#8 | .rolZpx => 0x36#8
  | .rolAbx => 0x3E#8
  -- R123 ROR
  | .rorZp => 0x66#8 | .rorAcc => 0x6A#8 | .rorAbs => 0x6E#8 | .rorZpx => 0x76#8
  | .rorAbx => 0x7E#8
  -- R124 INC
  | .incZp => 0xE6#8 | .incAbs => 0xEE#8 | .incZpx => 0xF6#8 | .incAbx => 0xFE#8
  -- R125 DEC
  | .decZp => 0xC6#8 | .decAbs => 0xCE#8 | .decZpx => 0xD6#8 | .decAbx => 0xDE#8
  -- R126 INX
  | .inx => 0xE8#8
  -- R127 INY
  | .iny => 0xC8#8
  -- R128 DEX
  | .dex => 0xCA#8
  -- R129 DEY
  | .dey => 0x88#8
  -- R131 BPL
  | .bpl => 0x10#8
  -- R132 BMI
  | .bmi => 0x30#8
  -- R133 BVC
  | .bvc => 0x50#8
  -- R134 BVS
  | .bvs => 0x70#8
  -- R135 BCC
  | .bcc => 0x90#8
  -- R136 BCS
  | .bcs => 0xB0#8
  -- R137 BNE
  | .bne => 0xD0#8
  -- R138 BEQ
  | .beq => 0xF0#8
  -- R139 JMP
  | .jmpAbs => 0x4C#8 | .jmpInd => 0x6C#8
  -- R140 JSR
  | .jsr => 0x20#8
  -- R141 RTS
  | .rts => 0x60#8
  -- R142 RTI
  | .rti => 0x40#8
  -- R143 BRK
  | .brk => 0x00#8
  -- R144 PHA
  | .pha => 0x48#8
  -- R145 PHP
  | .php => 0x08#8
  -- R146 PLA
  | .pla => 0x68#8
  -- R147 PLP
  | .plp => 0x28#8
  -- R148 CLC
  | .clc => 0x18#8
  -- R149 SEC
  | .sec => 0x38#8
  -- R150 CLI
  | .cli => 0x58#8
  -- R151 SEI
  | .sei => 0x78#8
  -- R152 CLD
  | .cld => 0xD8#8
  -- R153 SED
  | .sed => 0xF8#8
  -- R154 CLV
  | .clv => 0xB8#8
  -- R155 NOP
  | .nop => 0xEA#8
  -- R157 SLO
  | .sloIzx => 0x03#8 | .sloZp => 0x07#8 | .sloAbs => 0x0F#8 | .sloIzy => 0x13#8
  | .sloZpx => 0x17#8 | .sloAby => 0x1B#8 | .sloAbx => 0x1F#8
  -- R158 RLA
  | .rlaIzx => 0x23#8 | .rlaZp => 0x27#8 | .rlaAbs => 0x2F#8 | .rlaIzy => 0x33#8
  | .rlaZpx => 0x37#8 | .rlaAby => 0x3B#8 | .rlaAbx => 0x3F#8
  -- R159 SRE
  | .sreIzx => 0x43#8 | .sreZp => 0x47#8 | .sreAbs => 0x4F#8 | .sreIzy => 0x53#8
  | .sreZpx => 0x57#8 | .sreAby => 0x5B#8 | .sreAbx => 0x5F#8
  -- R160 RRA
  | .rraIzx => 0x63#8 | .rraZp => 0x67#8 | .rraAbs => 0x6F#8 | .rraIzy => 0x73#8
  | .rraZpx => 0x77#8 | .rraAby => 0x7B#8 | .rraAbx => 0x7F#8
  -- R161 DCP
  | .dcpIzx => 0xC3#8 | .dcpZp => 0xC7#8 | .dcpAbs => 0xCF#8 | .dcpIzy => 0xD3#8
  | .dcpZpx => 0xD7#8 | .dcpAby => 0xDB#8 | .dcpAbx => 0xDF#8
  -- R162 ISB
  | .isbIzx => 0xE3#8 | .isbZp => 0xE7#8 | .isbAbs => 0xEF#8 | .isbIzy => 0xF3#8
  | .isbZpx => 0xF7#8 | .isbAby => 0xFB#8 | .isbAbx => 0xFF#8
  -- R163 SAX
  | .saxIzx => 0x83#8 | .saxZp => 0x87#8 | .saxAbs => 0x8F#8 | .saxZpy => 0x97#8
  -- R164 LAX
  | .laxIzx => 0xA3#8 | .laxZp => 0xA7#8 | .laxAbs => 0xAF#8 | .laxIzy => 0xB3#8
  | .laxZpy => 0xB7#8 | .laxAby => 0xBF#8
  -- R165 LAS
  | .lasAby => 0xBB#8
  -- R166 ANC
  | .ancImm0B => 0x0B#8 | .ancImm2B => 0x2B#8
  -- R167 ALR
  | .alrImm => 0x4B#8
  -- R168 ARR
  | .arrImm => 0x6B#8
  -- R169 ANE
  | .aneImm => 0x8B#8
  -- R170 LXA
  | .lxaImm => 0xAB#8
  -- R171 SBX
  | .sbxImm => 0xCB#8
  -- R172 USBC
  | .usbcImm => 0xEB#8
  -- R174 SHA
  | .shaIzy => 0x93#8 | .shaAby => 0x9F#8
  -- R175 SHX
  | .shxAby => 0x9E#8
  -- R176 SHY
  | .shyAbx => 0x9C#8
  -- R177 TAS
  | .tasAby => 0x9B#8
  -- R178 NOP
  | .nopZp04 => 0x04#8 | .nopAbs => 0x0C#8 | .nopZpx14 => 0x14#8 | .nopImp1A => 0x1A#8
  | .nopAbx1C => 0x1C#8 | .nopZpx34 => 0x34#8 | .nopImp3A => 0x3A#8 | .nopAbx3C => 0x3C#8
  | .nopZp44 => 0x44#8 | .nopZpx54 => 0x54#8 | .nopImp5A => 0x5A#8 | .nopAbx5C => 0x5C#8
  | .nopZp64 => 0x64#8 | .nopZpx74 => 0x74#8 | .nopImp7A => 0x7A#8 | .nopAbx7C => 0x7C#8
  | .nopImm80 => 0x80#8 | .nopImm82 => 0x82#8 | .nopImm89 => 0x89#8 | .nopImmC2 => 0xC2#8
  | .nopZpxD4 => 0xD4#8 | .nopImpDA => 0xDA#8 | .nopAbxDC => 0xDC#8 | .nopImmE2 => 0xE2#8
  | .nopZpxF4 => 0xF4#8 | .nopImpFA => 0xFA#8 | .nopAbxFC => 0xFC#8
  -- R179 JAM
  | .jam02 => 0x02#8 | .jam12 => 0x12#8 | .jam22 => 0x22#8 | .jam32 => 0x32#8
  | .jam42 => 0x42#8 | .jam52 => 0x52#8 | .jam62 => 0x62#8 | .jam72 => 0x72#8
  | .jam92 => 0x92#8 | .jamB2 => 0xB2#8 | .jamD2 => 0xD2#8 | .jamF2 => 0xF2#8

/-- The bytes of an instruction as it stands in memory: the opcode, then the operand bytes (R67). -/
def encode (a : Assembled) : List Byte := a.instr.opcode :: a.operands

end Sys2Proof
end

