-- ==== Sys2Proof/Machine/Bits.lean ====
section
/-! DEFINITION. Bit fields, byte order and sign extension (rules R11, R48). -/

namespace Sys2Proof.Machine

/-- Bit 7 of a byte, `v[7]`. -/
def bit7 (v : Byte) : Bool := v.getLsbD 7

/-- Bit 0 of a byte, `v[0]`. -/
def bit0 (v : Byte) : Bool := v.getLsbD 0

/-- `hi ++ lo`, the 16-bit value `hi * 256 + lo` (R11). -/
def joinBytes (hi lo : Byte) : Word := hi ++ lo

/-- `w[15:8]`. -/
def hiByte (w : Word) : Byte := w.extractLsb' 8 8

/-- `w[7:0]`. -/
def loByte (w : Word) : Byte := w.extractLsb' 0 8

/-- `zext_16` (R11). -/
def zext16 (b : Byte) : Word := b.setWidth 16

/-- `sext_16` (R11). -/
def sext16 (b : Byte) : Word := b.signExtend 16

/-- A flag as a byte, 0 or 1. -/
def flagByte (f : Bool) : Byte := if f then 1#8 else 0#8

end Sys2Proof.Machine
end

