-- ==== Sys2Proof/Config.lean ====
section
/-! DEFINITION. The implementation parameters of rule R10: what is fixed for one machine, and the
free values the spec leaves to its external collaborators. -/

namespace Sys2Proof

/-- What the CPU bus port is attached to, parameter `BUS` of R10 (D1). -/
inductive Bus
  /-- The NES memory router with PPU, APU, controller port and cartridge (R52, R53). -/
  | nes
  /-- 64 KiB of plain RAM (R56). -/
  | flat
  deriving DecidableEq, Repr

/-- Whether ADC, SBC, USBC, RRA, ISB and ARR honour the D flag, parameter `DECIMAL_MODE` of R10 (D2). -/
inductive DecimalMode
  | binary
  | nmosBcd
  deriving DecidableEq, Repr

/-- The construction parameters a machine is built with; no step changes them. -/
structure Params where
  bus         : Bus
  decimalMode : DecimalMode
  deriving DecidableEq, Repr

/-- The combinations R10 admits: with `BUS = NES` the mode is `binary`; with `FLAT` it is open. -/
def Params.wf (c : Params) : Bool :=
  c.bus == .flat || c.decimalMode == .binary

/-- `ANE_MAGIC`, the constant ORed into A by ANE (R10, R169; D3). -/
def Config.aneMagic : Byte := 0xEE#8

/-- `LXA_MAGIC`, the constant ORed into A by LXA (R10, R170; D3). -/
def Config.lxaMagic : Byte := 0xEE#8

/-- FREE VALUE. What `APU.read_status()` answers in a given CPU cycle when the host has listed no
answer for it: the APU is an external collaborator and its answers are OPEN (R10, R60). Safe: notes/assumptions/6.md. -/
opaque Config.freeApuStatus : Nat → Byte

/-- FREE VALUE. What `PAD.read(i)` answers for a port in a given CPU cycle when the host has listed
no answer for it (R10, R60). -/
opaque Config.freePadRead : Nat → Nat → Byte

/-- FREE VALUE. What `CART.read_chr` answers at an offset when the cartridge has no CHR ROM bank: R59 gives
a value only where `chr_rom` holds one. DESIGN CHOICE, safe: notes/assumptions/9.md. -/
opaque Config.freeChr : Nat → Byte

end Sys2Proof
end

