-- ==== Sys2Proof/Machine/State.lean ====
section
/-! DEFINITION. The architectural state (rules R16 to R42) as plain data, the reasons a step can
stop, and the state at power-on (R41, R221). -/

namespace Sys2Proof.Machine

/-- A byte memory: (address, byte) pairs, addresses strictly rising, none equal to what an unlisted
address reads as (`Memory.wf`, `Memory.unlisted` in Machine/Memory.lean). -/
abbrev Memory := List Host.Cell

/-! ## CPU -/

/-- The six stored flags of P (R22); B and U exist only in pushed copies. -/
structure Flags where
  /-- carry (R24) -/
  c : Bool
  /-- zero (R25) -/
  z : Bool
  /-- interrupt disable (R28) -/
  i : Bool
  /-- decimal (R29) -/
  d : Bool
  /-- overflow (R27) -/
  v : Bool
  /-- negative (R26) -/
  n : Bool
  deriving DecidableEq, Repr

/-- The CPU register file `CpuRegisters` (R16). -/
structure Cpu where
  a  : Byte
  x  : Byte
  y  : Byte
  s  : Byte
  pc : Word
  p  : Flags
  deriving DecidableEq, Repr

/-- The six one-bit latches of the interrupt controller (R30). -/
structure Latches where
  /-- the NMI pin level sampled at the previous poll -/
  nmiLevelPrev : Bool
  /-- an NMI edge was seen and the NMI is not yet serviced -/
  needNmi      : Bool
  /-- `need_nmi` as it stood before the most recent poll -/
  prevNeedNmi  : Bool
  /-- the IRQ pin was asserted and I was 0 at the most recent poll -/
  irqActive    : Bool
  /-- `irq_active` as it stood before the most recent poll -/
  prevIrq      : Bool
  /-- a reset is pending -/
  needReset    : Bool
  deriving DecidableEq, Repr

/-! ## Scheduler -/

/-- The event kinds in scope (R33): `Reset`, and the sentinel that is never popped. -/
inductive EventKind
  | reset
  | sentinel
  deriving DecidableEq, Repr

/-- A scheduled event with its absolute firing time (R33). -/
structure Event where
  kind : EventKind
  tick : Tick
  deriving DecidableEq, Repr

/-- The sentinel event at `u64::MAX` that keeps the queue non-empty (R33). -/
def Event.atEnd : Event := ⟨.sentinel, 0xFFFFFFFFFFFFFFFF#64⟩

/-! ## Cartridge -/

/-- The nametable mirroring mode the cartridge selects (R57, R58). -/
inductive Mirroring
  | horizontal
  | vertical
  deriving DecidableEq, Repr

/-- The cartridge, mapper 0 (R57 to R59). -/
structure Cart where
  /-- PRG ROM, offsets from 0 -/
  prgRom    : Memory
  /-- `n`, the number of 16 KiB PRG ROM banks, 1 or 2 (R59) -/
  prgBanks  : Nat
  /-- 8 KiB of PRG RAM at 0x6000 to 0x7FFF, offsets from 0 (R59) -/
  prgRam    : Memory
  /-- the number of 8 KiB CHR ROM banks (R58) -/
  chrBanks  : Nat
  /-- CHR ROM, offsets from 0 -/
  chrRom    : Memory
  mirroring : Mirroring
  deriving DecidableEq, Repr

/-! ## PPU -/

/-- The PPU (R35 to R40), with what the presentation sink has received (R212). -/
structure Ppu where
  /-- current VRAM address (R36) -/
  v          : VAddr
  /-- scroll latch, same layout as `v` (R36) -/
  t          : VAddr
  /-- fine X scroll, 0 to 7 (R35) -/
  fineX      : BitVec 3
  /-- the write toggle shared by SCROLL and ADDR (R35) -/
  w          : Bool
  /-- CTRL (R37) -/
  ctrl       : Byte
  /-- MASK (R38) -/
  mask       : Byte
  /-- STATUS (R39) -/
  status     : Byte
  /-- the OAM address (R35) -/
  oamAddr    : Byte
  /-- the DATA port's delayed value (R35, R201) -/
  readBuffer : Byte
  /-- 0 to 340 (R35) -/
  dot        : Fin 341
  /-- 0 to 261 (R35) -/
  scanline   : Fin 262
  /-- nametable byte latch (R204) -/
  ntLatch    : Byte
  /-- pattern low plane latch (R204) -/
  ptLoLatch  : Byte
  /-- pattern high plane latch (R204) -/
  ptHiLatch  : Byte
  /-- attribute latch (R204) -/
  atLatch    : BitVec 2
  /-- attribute bits of the current tile (R205) -/
  attrFeed   : BitVec 2
  /-- pattern shift registers (R205) -/
  bgPatLo    : Word
  bgPatHi    : Word
  /-- attribute shift registers (R205) -/
  bgAttrLo   : Byte
  bgAttrHi   : Byte
  /-- the NMI output (R211) -/
  nmiOut     : Bool
  /-- nametable RAM, 2 KiB (R40) -/
  nt         : Memory
  /-- palette RAM, 32 bytes (R40) -/
  pal        : Memory
  /-- OAM, 256 bytes (R40) -/
  oam        : Memory
  /-- frame buffer, entry `y * 256 + x` (R40) -/
  frame      : Memory
  /-- MODEL'S OWN (notes/assumptions/7.md): how many frames the presentation sink has received (R212) -/
  published  : Nat
  /-- MODEL'S OWN: the frame the sink received last (R212) -/
  sinkFrame  : Memory
  deriving DecidableEq, Repr

/-! ## Inputs, external collaborators and the bus record -/

/-- The external inputs of R10, written as finite data. A level input is a list of (cycle, level)
change points, low before the first; an answer list gives the value a collaborator answers in a
cycle. See Machine/Ops.lean for how they are read. DESIGN CHOICE, safe: notes/assumptions/5.md, 6.md. -/
structure Inputs where
  /-- `IRQ_IN` (R47) -/
  irq       : List (Nat × Bool)
  /-- `NMI_IN`, used with `BUS = FLAT` (R46) -/
  nmi       : List (Nat × Bool)
  /-- answers of `APU.read_status()` (R60) -/
  apuStatus : List (Nat × Byte)
  /-- answers of `PAD.read(0)` (R60) -/
  pad0      : List (Nat × Byte)
  /-- answers of `PAD.read(1)` (R60) -/
  pad1      : List (Nat × Byte)
  deriving DecidableEq, Repr

/-- A call the memory router makes on an external collaborator (R52, R53, R60). -/
inductive ExtCall
  | apuWrite (addr : Word) (v : Byte)
  | apuReadStatus
  | padRead (port : Nat)
  | padWrite (v : Byte)
  deriving DecidableEq, Repr

/-- What one CPU cycle does on the bus port (R43); `idle` is the DMA alignment cycle (R195). -/
inductive CycleKind
  | read
  | write
  | idle
  deriving DecidableEq, Repr

/-- The per-access record `Pins` (R32). `rst` is never driven (notes/assumptions/13.md). -/
structure Pins where
  address : Word
  data    : Byte
  irq     : Bool
  nmi     : Bool
  rst     : Bool
  oamDma  : Option Byte
  deriving DecidableEq, Repr

/-- One entry of the bus log: what the cycle did and the pins it left. -/
structure BusCycle where
  kind : CycleKind
  pins : Pins
  deriving DecidableEq, Repr

/-! ## The machine -/

/-- The whole machine. -/
structure State where
  /-- construction parameters (R10) -/
  params   : Params
  cpu      : Cpu
  lat      : Latches
  /-- the CPU cycle counter (R31) -/
  cycles   : Tick
  /-- the scheduler's queue, soonest first (R33) -/
  queue    : List Event
  /-- the RAM on the CPU bus: 2 KiB at offsets 0 to 0x7FF with `NES`, 64 KiB with `FLAT` (R34) -/
  ram      : Memory
  ppu      : Ppu
  cart     : Cart
  inputs   : Inputs
  /-- MODEL'S OWN: calls made on the APU and the controller port, newest first, each with the number
  of its cycle (R60) -/
  extCalls : List (Tick × ExtCall)
  /-- MODEL'S OWN: how often `APU.tick()` was called (R45) -/
  apuTicks : Nat
  /-- MODEL'S OWN: the `Pins` records of all cycles since construction, newest first (R32, R43) -/
  busLog   : List BusCycle
  deriving DecidableEq, Repr

/-- Why a step stops. -/
inductive Fault
  /-- Raised by `step` alone, when the scheduler's queue is empty: "an internal invariant violation"
  that "should fail loudly" (R193). SAFE: the sentinel keeps the queue non-empty in every state a
  machine can reach. -/
  | schedulerQueueEmpty
  deriving DecidableEq, Repr

/-- Why an instruction has no meaning. -/
inductive Refusal
  /-- Raised by an arm of `exec` for an instruction the model does not give a meaning yet; no arm of
  this model does. SAFE: the machine stops. -/
  | notModelled (mnemonic : String)
  deriving DecidableEq, Repr

/-- What a meaning and a step answer. -/
abbrev Result := Host.Outcome State Fault Refusal

/-- The PPU at power-on: every register, latch and counter 0 and the frame buffer 0 (R41, D16); construction puts `RAM_INIT`
into its memories. DESIGN CHOICE of the spec, unsafe: notes/assumptions/4.md. -/
def Ppu.powerOn : Ppu where
  v := 0#15
  t := 0#15
  fineX := 0#3
  w := false
  ctrl := 0#8
  mask := 0#8
  status := 0#8
  oamAddr := 0#8
  readBuffer := 0#8
  dot := 0
  scanline := 0
  ntLatch := 0#8
  ptLoLatch := 0#8
  ptHiLatch := 0#8
  atLatch := 0#2
  attrFeed := 0#2
  bgPatLo := 0#16
  bgPatHi := 0#16
  bgAttrLo := 0#8
  bgAttrHi := 0#8
  nmiOut := false
  nt := []
  pal := []
  oam := []
  frame := []
  published := 0
  sinkFrame := []

/-- A mapper-0 cartridge with one PRG and one CHR bank in which nothing is listed: the program is the host's to
supply (R58, R219). DESIGN CHOICE, unsafe: notes/assumptions/16.md. -/
def Cart.blank : Cart where
  prgRom := []
  prgBanks := 1
  prgRam := []
  chrBanks := 1
  chrRom := []
  mirroring := .horizontal

/-- No input asserted, no answer listed. -/
def Inputs.quiet : Inputs := ⟨[], [], [], [], []⟩

/-- `RAM_INIT` (R10, R34, R59): the power-on contents of the CPU RAM, of the cartridge's PRG RAM and of the PPU's
nametable, palette and OAM memories, an argument of construction. -/
structure RamInit where
  ram    : Memory
  prgRam : Memory
  nt     : Memory
  pal    : Memory
  oam    : Memory
  deriving DecidableEq, Repr

/-- The reference value of `RAM_INIT`, all zero (R10, D5). DESIGN CHOICE of the spec, unsafe: notes/assumptions/3.md. -/
def RamInit.zero : RamInit := ⟨[], [], [], [], []⟩

/-- The state at construction (R41) for the parameters of R10: bus and decimal mode, `RAM_INIT`, the cartridge (whose
PRG RAM `RAM_INIT` fills) and the inputs. With `NES` the queue holds the power-on Reset event, with `FLAT` only the
sentinel (R192, D20). The values of R41 are a DESIGN CHOICE of the spec, unsafe: notes/assumptions/4.md. -/
def State.construct (c : Params) (m : RamInit) (k : Cart) (inp : Inputs) : State where
  params := c
  cpu := ⟨0#8, 0#8, 0#8, 0#8, 0#16, ⟨false, false, false, false, false, false⟩⟩
  lat := ⟨false, false, false, false, false, false⟩
  cycles := 0#64
  queue := match c.bus with
    | .nes => [⟨.reset, 0#64⟩, Event.atEnd]
    | .flat => [Event.atEnd]
  ram := m.ram
  ppu := { Ppu.powerOn with nt := m.nt, pal := m.pal, oam := m.oam }
  cart := { k with prgRam := m.prgRam }
  inputs := inp
  extCalls := []
  apuTicks := 0
  busLog := []

/-- Power-on of the reference configuration, `BUS = NES` with `DECIMAL_MODE = binary` and `RAM_INIT` all zero (R10, R41,
R221): the Reset event is queued and the first step runs the reset sequence. -/
def State.reset : State := State.construct ⟨.nes, .binary⟩ RamInit.zero Cart.blank Inputs.quiet

/-- Power-on with `BUS = FLAT` (R41, R221): no Reset is queued, and the host loads state. -/
def State.flatPowerOn (m : DecimalMode) : State := State.construct ⟨.flat, m⟩ RamInit.zero Cart.blank Inputs.quiet

end Sys2Proof.Machine
end

