-- ==== Sys2Proof/Machine/Registers.lean ====
section
/-! DEFINITION. Writing the CPU registers and flags (rules R16 to R29), the one home of each. -/

namespace Sys2Proof.Machine

def State.setA (s : State) (v : Byte) : State := { s with cpu := { s.cpu with a := v } }
def State.setX (s : State) (v : Byte) : State := { s with cpu := { s.cpu with x := v } }
def State.setY (s : State) (v : Byte) : State := { s with cpu := { s.cpu with y := v } }
def State.setS (s : State) (v : Byte) : State := { s with cpu := { s.cpu with s := v } }
def State.setPc (s : State) (v : Word) : State := { s with cpu := { s.cpu with pc := v } }
def State.setP (s : State) (p : Flags) : State := { s with cpu := { s.cpu with p := p } }

def Flags.setC (p : Flags) (b : Bool) : Flags := { p with c := b }
def Flags.setZ (p : Flags) (b : Bool) : Flags := { p with z := b }
def Flags.setI (p : Flags) (b : Bool) : Flags := { p with i := b }
def Flags.setD (p : Flags) (b : Bool) : Flags := { p with d := b }
def Flags.setV (p : Flags) (b : Bool) : Flags := { p with v := b }
def Flags.setN (p : Flags) (b : Bool) : Flags := { p with n := b }

/-- Apply a function to P. -/
def State.mapP (s : State) (f : Flags → Flags) : State := s.setP (f s.cpu.p)

end Sys2Proof.Machine
end

