-- ==== Sys2Proof/Machine/Flags.lean ====
section
/-! DEFINITION. The byte form of P and every flag computation of the ALU (rules R12, R22, R23,
R104 to R110, R168). -/

namespace Sys2Proof.Machine

/-- `SetNZ(v)` (R12): Z is `v == 0`, N is `v[7]`. -/
def Flags.setNZ (p : Flags) (v : Byte) : Flags := (p.setZ (v == 0#8)).setN (bit7 v)

/-- `Pbyte(b)` (R22): N V 1 b D I Z C from bit 7 down. -/
def Flags.toByte (p : Flags) (b : Bool) : Byte :=
  BitVec.ofBool p.n ++ BitVec.ofBool p.v ++ BitVec.ofBool true ++ BitVec.ofBool b ++
    BitVec.ofBool p.d ++ BitVec.ofBool p.i ++ BitVec.ofBool p.z ++ BitVec.ofBool p.c

/-- `SetP(b)` (R23): bits 4 and 5 are discarded. -/
def Flags.ofByte (b : Byte) : Flags where
  c := b.getLsbD 0
  z := b.getLsbD 1
  i := b.getLsbD 2
  d := b.getLsbD 3
  v := b.getLsbD 6
  n := b.getLsbD 7

/-- The carry as a number. -/
def carryNat (c : Bool) : Nat := if c then 1 else 0

/-- The exact sum of two bytes and a carry, up to 0x1FF: the 9-bit `s` of R105 and R106. -/
def sumNat (a m : Byte) (c : Bool) : Nat := a.toNat + m.toNat + carryNat c

/-- The low eight bits of that sum. -/
def sumByte (a m : Byte) (c : Bool) : Byte := BitVec.ofNat 8 (sumNat a m c)

/-- Carry out of bit 7, `s[8]`. -/
def sumCarry (a m : Byte) (c : Bool) : Bool := decide (0x100 ≤ sumNat a m c)

/-- Signed overflow, `((a ^ r) & (m ^ r))[7]` (R105). -/
def sumOverflow (a m r : Byte) : Bool := bit7 ((a ^^^ r) &&& (m ^^^ r))

/-- The binary branch of `Add(m)` (R105). -/
def addBinary (a m : Byte) (p : Flags) : Byte × Flags :=
  let r := sumByte a m p.c
  (r, (((p.setV (sumOverflow a m r)).setC (sumCarry a m p.c)).setNZ r))

/-- The low decimal digit step of `AddDec` (R107): `al` before the high digits are added. -/
def addDecLow (a m : Byte) (c : Bool) : Nat :=
  let al := (a &&& 0x0F#8).toNat + (m &&& 0x0F#8).toNat + carryNat c
  if 0x0A ≤ al then (al + 0x06) % 0x10 + 0x10 else al

/-- The intermediate `t` of `AddDec` (R107), up to 0x1FF. -/
def addDecMid (a m : Byte) (c : Bool) : Nat :=
  (a &&& 0xF0#8).toNat + (m &&& 0xF0#8).toNat + addDecLow a m c

/-- `AddDec(m)`, the NMOS decimal addition (R107): N and V from the intermediate, Z from the binary
sum. -/
def addDecimal (a m : Byte) (p : Flags) : Byte × Flags :=
  let t := addDecMid a m p.c
  let t' := if 0xA0 ≤ t then t + 0x60 else t
  (BitVec.ofNat 8 t',
    (((p.setZ (sumByte a m p.c == 0#8)).setN (t.testBit 7)).setV
      (bit7 (~~~(a ^^^ m) &&& (a ^^^ BitVec.ofNat 8 t)))).setC (decide (0x100 ≤ t')))

/-- `Add(m)` (R105); `dec` says that the mode is `nmos_bcd`. -/
def aluAdd (dec : Bool) (a m : Byte) (p : Flags) : Byte × Flags :=
  if dec && p.d then addDecimal a m p else addBinary a m p

/-- `SubDecResult(m)` (R108), in signed integers. -/
def subDecResult (a m : Byte) (c : Bool) : Byte :=
  let al : Int := (a &&& 0x0F#8).toNat - (m &&& 0x0F#8).toNat + carryNat c - 1
  let al := if al < 0 then (al - 0x06) % 0x10 - 0x10 else al
  let t : Int := (a &&& 0xF0#8).toNat - (m &&& 0xF0#8).toNat + al
  let t := if t < 0 then t - 0x60 else t
  BitVec.ofInt 8 t

/-- `Sub(m)` (R106): the flags are those of the binary subtraction in both modes. -/
def aluSub (dec : Bool) (a m : Byte) (p : Flags) : Byte × Flags :=
  let m' := m ^^^ 0xFF#8
  let s := sumByte a m' p.c
  let r := if dec && p.d then subDecResult a m p.c else s
  (r, ((p.setV (sumOverflow a m' s)).setC (sumCarry a m' p.c)).setNZ s)

/-- `Compare(r, m)` (R109). -/
def aluCompare (r m : Byte) (p : Flags) : Flags :=
  ((p.setC (decide (m.toNat ≤ r.toNat))).setZ (r == m)).setN (bit7 (r - m))

/-- `Asl(v)` (R110): the result and P with C the bit shifted out. -/
def aluAsl (v : Byte) (p : Flags) : Byte × Flags := (v <<< 1, p.setC (bit7 v))

/-- `Lsr(v)` (R110). -/
def aluLsr (v : Byte) (p : Flags) : Byte × Flags := (v >>> 1, p.setC (bit0 v))

/-- `Rol(v)` (R110), through the old C. -/
def aluRol (v : Byte) (p : Flags) : Byte × Flags := ((v <<< 1) ||| flagByte p.c, p.setC (bit7 v))

/-- `Ror(v)` (R110), through the old C. -/
def aluRor (v : Byte) (p : Flags) : Byte × Flags :=
  ((v >>> 1) ||| (flagByte p.c <<< 7), p.setC (bit0 v))

/-- BIT (R116): Z from `A & m`, N and V from bits 7 and 6 of the operand. -/
def aluBit (a m : Byte) (p : Flags) : Flags :=
  ((p.setZ ((a &&& m) == 0#8)).setN (bit7 m)).setV (m.getLsbD 6)

/-- The decimal branch of ARR (R168), on `t = A & m` and `r` rotated. -/
def arrDecimal (t r : Byte) (p : Flags) : Byte × Flags :=
  let p' := ((p.setN p.c).setZ (r == 0#8)).setV ((t ^^^ r).getLsbD 6)
  let r1 := if 0x05 < (t &&& 0x0F#8).toNat + (t &&& 0x01#8).toNat
    then (r &&& 0xF0#8) ||| ((r + 0x06#8) &&& 0x0F#8) else r
  if 0x50 < (t &&& 0xF0#8).toNat + (t &&& 0x10#8).toNat
    then (r1 + 0x60#8, p'.setC true) else (r1, p'.setC false)

/-- ARR (R168): AND, rotate right through C, with its own flag rules. -/
def aluArr (dec : Bool) (a m : Byte) (p : Flags) : Byte × Flags :=
  let t := a &&& m
  let r := (t >>> 1) ||| (flagByte p.c <<< 7)
  if dec && p.d then arrDecimal t r p
  else (r, ((p.setNZ r).setC (r.getLsbD 6)).setV ((r.getLsbD 6) ^^ (r.getLsbD 5)))

end Sys2Proof.Machine
end

