-- ==== Sys2Proof/Machine/Memory.lean ====
section
/-! DEFINITION. Byte memories in canonical form: read, write, and the form itself. -/

namespace Sys2Proof.Machine

/-- What an address nothing has written reads as: the reference value 0 of `RAM_INIT` (R10, D5). DESIGN CHOICE,
unsafe: notes/assumptions/3.md. -/
def Memory.unlisted : Byte := 0#8

/-- Read one byte. -/
def Memory.read : Memory → Nat → Byte
  | [], _ => Memory.unlisted
  | (k, v) :: m, a => if a = k then v else Memory.read m a

/-- The list `m` with the entry for `a` set in front of it, or none if `v` is what an unlisted
address reads as. -/
def Memory.entry (a : Nat) (v : Byte) (m : Memory) : Memory :=
  if v = Memory.unlisted then m else (a, v) :: m

/-- Write one byte, keeping the canonical form. -/
def Memory.write : Memory → Nat → Byte → Memory
  | [], a, v => Memory.entry a v []
  | (k, w) :: m, a, v =>
    if a < k then Memory.entry a v ((k, w) :: m)
    else if a = k then Memory.entry a v m
    else (k, w) :: Memory.write m a v

/-- The canonical form from an address on: addresses strictly rising from `lo`, no entry equal to
what an unlisted address reads as, and every address below `hi`. -/
def Memory.wfFrom (lo hi : Nat) : Memory → Bool
  | [] => true
  | (k, v) :: m => decide (lo ≤ k) && decide (k < hi) && (v != Memory.unlisted) && Memory.wfFrom (k + 1) hi m

/-- The canonical form of a memory of `size` bytes. -/
def Memory.wf (size : Nat) (m : Memory) : Bool := Memory.wfFrom 0 size m

/-- Load consecutive bytes from an address on. -/
def Memory.writeList (m : Memory) (a : Nat) : List Byte → Memory
  | [] => m
  | v :: vs => Memory.writeList (m.write a v) (a + 1) vs

end Sys2Proof.Machine
end

