-- ==== Sys2Proof/Machine/Ppu.lean ====
section
/-! DEFINITION. The cartridge interface (R57, R59) and the PPU as a device: its memory (R196 to
R198), its register port (R199 to R201) and its dot state machine (R203 to R212). -/

namespace Sys2Proof.Machine

/-! ## Cartridge, mapper 0 -/

/-- `read_prg(addr)` for 0x4020 to 0xFFFF (R59). -/
def Cart.readPrg (k : Cart) (a : Nat) : Byte :=
  if 0x8000 ≤ a then k.prgRom.read ((a - 0x8000) % (k.prgBanks * 0x4000))
  else if 0x6000 ≤ a then k.prgRam.read (a - 0x6000)
  else 0x00#8

/-- `write_prg(addr, v)`: PRG RAM stores, all else is ignored (R59). -/
def Cart.writePrg (k : Cart) (a : Nat) (v : Byte) : Cart :=
  if 0x6000 ≤ a ∧ a < 0x8000 then { k with prgRam := k.prgRam.write (a - 0x6000) v } else k

/-- `read_chr(a)` (R59); without a CHR ROM bank the value is free. -/
def Cart.readChr (k : Cart) (a : Nat) : Byte :=
  if k.chrBanks = 0 then Config.freeChr (a % 0x2000) else k.chrRom.read (a % 0x2000)

/-! ## PPU memory -/

/-- `NtIndex(a)` (R197): four logical nametables onto two physical ones. -/
def ntIndex (m : Mirroring) (a : Nat) : Nat :=
  let o := (a - 0x2000) % 0x1000
  let n := o / 0x400
  let p := match m with
    | .horizontal => n / 2
    | .vertical => n % 2
  p * 0x400 + o % 0x400

/-- `PalIndex(a)` (R198). -/
def palIndex (a : Nat) : Nat :=
  let i := a % 0x20
  if i = 0x10 ∨ i = 0x14 ∨ i = 0x18 ∨ i = 0x1C then i - 0x10 else i

/-- `PpuRead(a)` (R196). -/
def Ppu.read (p : Ppu) (k : Cart) (a : PAddr) : Byte :=
  if a.toNat < 0x2000 then k.readChr a.toNat
  else if a.toNat < 0x3F00 then p.nt.read (ntIndex k.mirroring a.toNat)
  else p.pal.read (palIndex a.toNat)

/-- `PpuWrite(a, d)` (R196): the pattern tables ignore writes. -/
def Ppu.write (p : Ppu) (k : Cart) (a : PAddr) (d : Byte) : Ppu :=
  if a.toNat < 0x2000 then p
  else if a.toNat < 0x3F00 then { p with nt := p.nt.write (ntIndex k.mirroring a.toNat) d }
  else { p with pal := p.pal.write (palIndex a.toNat) d }

/-! ## Loopy registers (R36) -/

def coarseX (v : VAddr) : BitVec 5 := v.extractLsb' 0 5
def coarseY (v : VAddr) : BitVec 5 := v.extractLsb' 5 5
/-- bit 10, horizontal nametable select -/
def ntX (v : VAddr) : BitVec 1 := v.extractLsb' 10 1
/-- bit 11, vertical nametable select -/
def ntY (v : VAddr) : BitVec 1 := v.extractLsb' 11 1
def fineY (v : VAddr) : BitVec 3 := v.extractLsb' 12 3

/-- The loopy register with the given fields. -/
def packV (fy : BitVec 3) (ny nx : BitVec 1) (cy cx : BitVec 5) : VAddr := fy ++ ny ++ nx ++ cy ++ cx

/-- `IncX()` (R206). -/
def incX (v : VAddr) : VAddr :=
  if coarseX v = 31#5 then packV (fineY v) (ntY v) (~~~(ntX v)) (coarseY v) 0#5
  else packV (fineY v) (ntY v) (ntX v) (coarseY v) (coarseX v + 1#5)

/-- `IncY()` (R207). -/
def incY (v : VAddr) : VAddr :=
  if fineY v ≠ 7#3 then packV (fineY v + 1#3) (ntY v) (ntX v) (coarseY v) (coarseX v)
  else if coarseY v = 29#5 then packV 0#3 (~~~(ntY v)) (ntX v) 0#5 (coarseX v)
  else if coarseY v = 31#5 then packV 0#3 (ntY v) (ntX v) 0#5 (coarseX v)
  else packV 0#3 (ntY v) (ntX v) (coarseY v + 1#5) (coarseX v)

/-- The reload of the horizontal scroll bits at dot 257 (R208). -/
def reloadX (v t : VAddr) : VAddr := packV (fineY v) (ntY v) (ntX t) (coarseY v) (coarseX t)

/-- The reload of the vertical scroll bits at dots 280 to 304 of scanline 261 (R209). -/
def reloadY (v t : VAddr) : VAddr := packV (fineY t) (ntY t) (ntX v) (coarseY t) (coarseX v)

/-! ## Register port -/

/-- What a DATA access adds to `v`: 32 if CTRL bit 2 is set, else 1 (R201). -/
def Ppu.vIncrement (p : Ppu) : VAddr := if p.ctrl.getLsbD 2 then 32#15 else 1#15

/-- `DataRead()` (R201). -/
def Ppu.dataRead (p : Ppu) (k : Cart) : Byte × Ppu :=
  let a : PAddr := p.v.setWidth 14
  let v' := p.v + p.vIncrement
  if a.toNat < 0x3F00 then (p.readBuffer, { p with readBuffer := p.read k a, v := v' })
  else (p.read k a, { p with readBuffer := p.read k (a - 0x1000#14), v := v' })

/-- `DataWrite(d)` (R201). -/
def Ppu.dataWrite (p : Ppu) (k : Cart) (d : Byte) : Ppu :=
  let q := p.write k (p.v.setWidth 14) d
  { q with v := p.v + p.vIncrement }

/-- The STATUS read (R199): vblank and `w` are cleared, `nmi_out` is not. -/
def Ppu.statusRead (p : Ppu) : Byte × Ppu :=
  (p.status &&& 0xE0#8, { p with status := p.status &&& 0x7F#8, w := false })

/-- `read_register(r)` (R199), `r` the low three bits of the CPU address. -/
def Ppu.readRegister (p : Ppu) (k : Cart) (r : Nat) : Byte × Ppu :=
  match r with
  | 2 => p.statusRead
  | 4 => (p.oam.read p.oamAddr.toNat, p)
  | 7 => p.dataRead k
  | _ => (0x00#8, p)

/-- CTRL write (R200): bits 1:0 go to `t[11:10]`. -/
def Ppu.ctrlWrite (p : Ppu) (d : Byte) : Ppu :=
  { p with ctrl := d, t := (p.t &&& 0x73FF#15) ||| (((d &&& 0x03#8).setWidth 15) <<< 10) }

/-- OAM data write (R200). -/
def Ppu.oamWrite (p : Ppu) (d : Byte) : Ppu :=
  { p with oam := p.oam.write p.oamAddr.toNat d, oamAddr := p.oamAddr + 1#8 }

/-- SCROLL write (R200). -/
def Ppu.scrollWrite (p : Ppu) (d : Byte) : Ppu :=
  if p.w then
    { p with t := (p.t &&& 0x0C1F#15) ||| (((d &&& 0x07#8).setWidth 15) <<< 12) |||
                  (((d >>> 3).setWidth 15) <<< 5), w := false }
  else
    { p with t := (p.t &&& 0x7FE0#15) ||| ((d >>> 3).setWidth 15), fineX := d.setWidth 3, w := true }

/-- ADDR write (R200): the second one copies `t` into `v`. -/
def Ppu.addrWrite (p : Ppu) (d : Byte) : Ppu :=
  if p.w then
    let t' := (p.t &&& 0x7F00#15) ||| d.setWidth 15
    { p with t := t', v := t', w := false }
  else
    { p with t := (p.t &&& 0x00FF#15) ||| (((d &&& 0x3F#8).setWidth 15) <<< 8), w := true }

/-- `write_register(r, d)` (R200). -/
def Ppu.writeRegister (p : Ppu) (k : Cart) (r : Nat) (d : Byte) : Ppu :=
  match r with
  | 0 => p.ctrlWrite d
  | 1 => { p with mask := d }
  | 3 => { p with oamAddr := d }
  | 4 => p.oamWrite d
  | 5 => p.scrollWrite d
  | 6 => p.addrWrite d
  | 7 => p.dataWrite k d
  | _ => p

/-! ## The dot state machine -/

/-- `rend`, rendering enabled (R38, R203). -/
def Ppu.rendering (p : Ppu) : Bool := p.mask.getLsbD 3 || p.mask.getLsbD 4

/-- `fl`, a visible or the pre-render scanline (R203). -/
def Ppu.fetchLine (p : Ppu) : Bool := decide (p.scanline.val < 240) || decide (p.scanline.val = 261)

/-- `SetVblank()` (R211). -/
def Ppu.setVblank (p : Ppu) : Ppu :=
  { p with status := p.status ||| 0x80#8, nmiOut := p.ctrl.getLsbD 7 || p.nmiOut }

/-- `ClearVblank()` (R211). -/
def Ppu.clearVblank (p : Ppu) : Ppu :=
  { p with status := p.status &&& 0x1F#8, nmiOut := false }

/-- The nametable byte address of the current tile (R204). -/
def Ppu.ntAddr (p : Ppu) : PAddr := 0x2000#14 ||| (p.v &&& 0x0FFF#15).setWidth 14

/-- The attribute byte address of the current tile (R204). -/
def Ppu.attrAddr (p : Ppu) : PAddr :=
  (0x23C0#15 ||| (p.v &&& 0x0C00#15) ||| ((p.v >>> 4) &&& 0x38#15) ||| ((p.v >>> 2) &&& 0x07#15)).setWidth 14

/-- How far the attribute byte is shifted: bit 1 of coarse Y gives 4, bit 1 of coarse X gives 2
(R204). -/
def Ppu.attrShift (p : Ppu) : Nat := (((p.v >>> 4) &&& 0x04#15) ||| (p.v &&& 0x02#15)).toNat

/-- The pattern low plane address (R204). -/
def Ppu.patternAddr (p : Ppu) : PAddr :=
  (if p.ctrl.getLsbD 4 then 0x1000#14 else 0#14) + (p.ntLatch.setWidth 14 <<< 4) + (fineY p.v).setWidth 14

/-- `Shift()` (R205). -/
def Ppu.shift (p : Ppu) : Ppu :=
  { p with
    bgPatLo := p.bgPatLo <<< 1
    bgPatHi := p.bgPatHi <<< 1
    bgAttrLo := (p.bgAttrLo <<< 1) ||| flagByte (p.attrFeed.getLsbD 0)
    bgAttrHi := (p.bgAttrHi <<< 1) ||| flagByte (p.attrFeed.getLsbD 1) }

/-- `Reload()` (R205). -/
def Ppu.reload (p : Ppu) : Ppu :=
  { p with
    bgPatLo := (p.bgPatLo &&& 0xFF00#16) ||| zext16 p.ptLoLatch
    bgPatHi := (p.bgPatHi &&& 0xFF00#16) ||| zext16 p.ptHiLatch
    attrFeed := p.atLatch }

/-- `FetchPhase(k)` (R204). -/
def Ppu.fetchPhase (p : Ppu) (c : Cart) (k : Nat) : Ppu :=
  match k with
  | 1 => { p with ntLatch := p.read c p.ntAddr }
  | 3 => { p with atLatch := (p.read c p.attrAddr >>> p.attrShift).setWidth 2 }
  | 5 => { p with ptLoLatch := p.read c p.patternAddr }
  | 7 => { p with ptHiLatch := p.read c (p.patternAddr + 8#14) }
  | 0 => { p with v := incX p.v }
  | _ => p

/-- The 2-bit pixel value at the fine X offset (R210). -/
def Ppu.pixelValue (p : Ppu) : Nat :=
  (p.bgPatHi.getLsbD (15 - p.fineX.toNat)).toNat * 2 + (p.bgPatLo.getLsbD (15 - p.fineX.toNat)).toNat

/-- The 2-bit palette index at the fine X offset (R210). -/
def Ppu.paletteIndex (p : Ppu) : Nat :=
  (p.bgAttrHi.getLsbD (7 - p.fineX.toNat)).toNat * 2 + (p.bgAttrLo.getLsbD (7 - p.fineX.toNat)).toNat

/-- The palette address of the pixel: 0x3F00 for the pixel value 0 (R210). -/
def Ppu.pixelAddr (p : Ppu) : PAddr :=
  if p.pixelValue = 0 then 0x3F00#14 else BitVec.ofNat 14 (0x3F00 + p.paletteIndex * 4 + p.pixelValue)

/-- `RenderPixel(x, y)` (R210). -/
def Ppu.renderPixel (p : Ppu) (c : Cart) (x y : Nat) : Ppu :=
  { p with frame := p.frame.write (y * 256 + x) (p.read c p.pixelAddr) }

/-- `PublishFrame()` (R212): the presentation sink receives the frame buffer, which stays. -/
def Ppu.publishFrame (p : Ppu) : Ppu := { p with published := p.published + 1, sinkFrame := p.frame }

/-- Apply `f` if `b`. -/
def when (b : Bool) (f : Ppu → Ppu) (p : Ppu) : Ppu := if b then f p else p

/-- Vblank set and clear (R203, R211), with rendering enabled or not. -/
def Ppu.vblankActions (p : Ppu) : Ppu :=
  if p.dot.val = 1 then
    if p.scanline.val = 241 then p.setVblank
    else if p.scanline.val = 261 then p.clearVblank
    else p
  else p

/-- The actions of dot `d` on scanline `y`, a visible or the pre-render one, with rendering enabled,
in the order of R203. The discarded read at dot 339 has no side effect (R196). -/
def Ppu.renderActions (p : Ppu) (c : Cart) (d y : Nat) : Ppu :=
  let p := when ((2 ≤ d && d ≤ 257) || (322 ≤ d && d ≤ 337)) Ppu.shift p
  let p := when (((9 ≤ d && d ≤ 257) || (321 ≤ d && d ≤ 337)) && d % 8 == 1) Ppu.reload p
  let p := when ((1 ≤ d && d ≤ 256) || (321 ≤ d && d ≤ 337)) (fun q => q.fetchPhase c (d % 8)) p
  let p := when (d == 256) (fun q => { q with v := incY q.v }) p
  let p := when (d == 257) (fun q => { q with v := reloadX q.v q.t }) p
  let p := when (y == 261 && 280 ≤ d && d ≤ 304) (fun q => { q with v := reloadY q.v q.t }) p
  when (decide (y < 240) && 1 ≤ d && d ≤ 256) (fun q => q.renderPixel c (d - 1) y) p

/-- Advance one dot, publishing the frame when the pre-render scanline is entered (R203, R212). -/
def Ppu.advance (p : Ppu) : Ppu :=
  if p.dot.val = 340 then
    when (p.scanline.val == 260) Ppu.publishFrame { p with dot := 0, scanline := p.scanline + 1 }
  else { p with dot := p.dot + 1 }

/-- `ppu.tick()` (R203). -/
def Ppu.tick (p : Ppu) (c : Cart) : Ppu :=
  let q := p.vblankActions
  let q := if p.fetchLine && p.rendering then q.renderActions c p.dot.val p.scanline.val else q
  q.advance

end Sys2Proof.Machine
end

