-- ==== Sys2Proof/Machine/Ops.lean ====
section
/-! DEFINITION. The bus access every CPU cycle is made of (R43 to R61), the interrupt poll (R183), OAM
DMA (R195), instruction fetch, the stack, taking an interrupt and returning from one (R186, R187,
R142), the reset sequence (R220) and the event scheduler (R192 to R194). -/

namespace Sys2Proof.Machine

/-! ## Inputs -/

/-- The level of an input at the end of cycle `c` (R10): that of the last change point at or before
`c`, low before the first. -/
def levelAt (w : List (Nat × Bool)) (c : Nat) : Bool :=
  w.foldl (fun acc e => if e.1 ≤ c then e.2 else acc) false

/-- The answer listed for cycle `c`, or the given free value. -/
def answerAt (w : List (Nat × Byte)) (c : Nat) (free : Byte) : Byte :=
  match w with
  | [] => free
  | (k, v) :: w => if c = k then v else answerAt w c free

/-- The number of the cycle under way before its count is taken: the first cycle after construction
is cycle 1, as for `IRQ_IN(c)` (R47). -/
def State.cycleNumber (s : State) : Tick := s.cycles + 1#64

/-- `APU.read_status()` in the cycle under way (R60). -/
def State.apuStatusAnswer (s : State) : Byte :=
  answerAt s.inputs.apuStatus s.cycleNumber.toNat (Config.freeApuStatus s.cycleNumber.toNat)

/-- `PAD.read(i)` in the cycle under way (R60). -/
def State.padAnswer (s : State) (port : Nat) : Byte :=
  answerAt (if port = 0 then s.inputs.pad0 else s.inputs.pad1) s.cycleNumber.toNat
    (Config.freePadRead port s.cycleNumber.toNat)

/-- Record a call on an external collaborator. -/
def State.callExt (s : State) (c : ExtCall) : State :=
  { s with extCalls := (s.cycleNumber, c) :: s.extCalls }

/-! ## The bus port -/

/-- `BusRead(addr)` with `BUS = NES` (R52). -/
def State.nesRead (s : State) (a : Word) : Byte × State :=
  let n := a.toNat
  if n < 0x2000 then (s.ram.read (n % 0x800), s)
  else if n < 0x4000 then
    let r := s.ppu.readRegister s.cart (n % 8)
    (r.1, { s with ppu := r.2 })
  else if n = 0x4015 then (s.apuStatusAnswer, s.callExt .apuReadStatus)
  else if n = 0x4016 then (s.padAnswer 0, s.callExt (.padRead 0))
  else if n = 0x4017 then (s.padAnswer 1, s.callExt (.padRead 1))
  else if n < 0x4020 then (0x00#8, s)
  else (s.cart.readPrg n, s)

/-- `BusRead(addr)` (R52, R56). -/
def State.busRead (s : State) (a : Word) : Byte × State :=
  match s.params.bus with
  | .flat => (s.ram.read a.toNat, s)
  | .nes => s.nesRead a

/-- `BusWrite(addr, v)` with `BUS = NES` (R53): `pins.oam_dma` and the state. -/
def State.nesWrite (s : State) (a : Word) (v : Byte) : Option Byte × State :=
  let n := a.toNat
  if n < 0x2000 then (none, { s with ram := s.ram.write (n % 0x800) v })
  else if n < 0x4000 then (none, { s with ppu := s.ppu.writeRegister s.cart (n % 8) v })
  else if n = 0x4014 then (some v, s)
  else if n = 0x4016 then (none, s.callExt (.padWrite v))
  else if n < 0x4018 then (none, s.callExt (.apuWrite a v))
  else if n < 0x4020 then (none, s)
  else (none, { s with cart := s.cart.writePrg n v })

/-- `BusWrite(addr, v)` (R53, R56). -/
def State.busWrite (s : State) (a : Word) (v : Byte) : Option Byte × State :=
  match s.params.bus with
  | .flat => (none, { s with ram := s.ram.write a.toNat v })
  | .nes => s.nesWrite a v

/-! ## The end of a cycle -/

/-- `BusClock()` (R45, R46): the level of `pins.nmi` and the state. -/
def State.busClock (s : State) : Bool × State :=
  match s.params.bus with
  | .flat => (levelAt s.inputs.nmi s.cycles.toNat, s)
  | .nes =>
    let p := ((s.ppu.tick s.cart).tick s.cart).tick s.cart
    (p.nmiOut, { s with ppu := p, apuTicks := s.apuTicks + 1 })

/-- `Poll()` (R183) with the sampled pin levels. -/
def Latches.poll (l : Latches) (nmi irq iFlag : Bool) : Latches :=
  { l with
    prevNeedNmi := l.needNmi
    prevIrq := l.irqActive
    needNmi := l.needNmi || (nmi && !l.nmiLevelPrev)
    nmiLevelPrev := nmi
    irqActive := irq && !iFlag }

/-- The sub-steps of a cycle after the bus exchange (R44): the cycle count, `BusClock`, the IRQ
sample and the poll; the pins are logged. -/
def State.endCycle (s : State) (k : CycleKind) (a : Word) (d : Byte) (dma : Option Byte) : State :=
  match { s with cycles := s.cycles + 1#64 }.busClock with
  | (nmi, s) =>
    let irq := levelAt s.inputs.irq s.cycles.toNat
    { s with
      lat := s.lat.poll nmi irq s.cpu.p.i
      busLog := ⟨k, ⟨a, d, irq, nmi, false, dma⟩⟩ :: s.busLog }

/-- `MemRead(addr, 1)` (R12, R44). A read never sets `pins.oam_dma`. -/
def State.memRead (s : State) (a : Word) : Byte × State :=
  match s.busRead a with
  | (d, s) => (d, s.endCycle .read a d none)

/-- `DummyRead(addr)` (R12). -/
def State.dummyRead (s : State) (a : Word) : State := (s.memRead a).2

/-- A write cycle up to its DMA check: `pins.oam_dma` and the state (R44). -/
def State.writeCycle (s : State) (a : Word) (v : Byte) : Option Byte × State :=
  match s.busWrite a v with
  | (dma, s) => (dma, s.endCycle .write a v dma)

/-! ## OAM DMA (R195) -/

/-- `IdleCycle()`. -/
def State.idleCycle (s : State) : State := s.endCycle .idle 0#16 0#8 none

/-- One read/write pair of the copy; the OAM-data port sets no `pins.oam_dma` (DEDUCED, notes/assumptions/12.md). -/
def State.dmaPair (s : State) (page i : Byte) : State :=
  match s.memRead (joinBytes page i) with
  | (b, s) => (s.writeCycle 0x2004#16 b).2

/-- `n` pairs from index `i` on. -/
def State.dmaCopy (page : Byte) : Nat → Byte → State → State
  | 0, _, s => s
  | n + 1, i, s => State.dmaCopy page n (i + 1#8) (s.dmaPair page i)

/-- `RunDma()`: one idle cycle if `cycles` is odd, then 256 pairs. -/
def State.runDma (s : State) (page : Byte) : State :=
  State.dmaCopy page 256 0#8 (if s.cycles.getLsbD 0 then s.idleCycle else s)

/-- `MemWrite(addr, 1, v)` (R12, R44). -/
def State.memWrite (s : State) (a : Word) (v : Byte) : State :=
  match s.writeCycle a v with
  | (none, s) => s
  | (some page, s) => s.runDma page

/-! ## Fetch and stack (R12, R19) -/

/-- `Fetch()`. -/
def State.fetch (s : State) : Byte × State :=
  match s.memRead s.cpu.pc with
  | (v, s) => (v, s.setPc (s.cpu.pc + 1#16))

/-- `0x0100 | S`. -/
def State.stackAddr (s : State) : Word := joinBytes 0x01#8 s.cpu.s

/-- `Push(v)`. -/
def State.push (s : State) (v : Byte) : State :=
  let s := s.memWrite s.stackAddr v
  s.setS (s.cpu.s - 1#8)

/-- `Pull()`. -/
def State.pull (s : State) : Byte × State :=
  let s := s.setS (s.cpu.s + 1#8)
  s.memRead s.stackAddr

/-! ## Taking an interrupt and returning -/

/-- The vectors (R55). -/
def nmiVector : Word := 0xFFFA#16
def resetVector : Word := 0xFFFC#16
def irqVector : Word := 0xFFFE#16

/-- `SelectVector(default)` (R187). -/
def State.selectVector (s : State) (dflt : Word) : Word × State :=
  if s.lat.needNmi then (nmiVector, { s with lat := { s.lat with needNmi := false } }) else (dflt, s)

/-- Load PC from the two bytes at `vec` (R48, R186). -/
def State.loadPc (s : State) (vec : Word) : State :=
  match s.memRead vec with
  | (lo, s) =>
    match s.memRead (vec + 1#16) with
    | (hi, s) => s.setPc (joinBytes hi lo)

/-- Set I (R186, R143, R220). -/
def State.setI (s : State) (b : Bool) : State := s.mapP (fun p => p.setI b)

/-- TAKING AN EXCEPTION, the part BRK and the hardware interrupts share (R143, R186): push PC and P
with the given B, select the vector, set I, load PC. -/
def State.enterInterrupt (s : State) (b : Bool) : State :=
  let s := s.push (hiByte s.cpu.pc)
  let s := s.push (loByte s.cpu.pc)
  let s := s.push (s.cpu.p.toByte b)
  match s.selectVector irqVector with
  | (vec, s) => (s.setI true).loadPc vec

/-- `InterruptSequence()`, the hardware IRQ and NMI entry (R186). -/
def State.interruptSequence (s : State) : State :=
  let s := s.dummyRead s.cpu.pc
  let s := s.dummyRead s.cpu.pc
  s.enterInterrupt false

/-- Return from interrupt (R142): pull P, then PC. -/
def State.returnFromInterrupt (s : State) : State :=
  let s := s.dummyRead s.cpu.pc
  let s := s.dummyRead s.stackAddr
  match s.pull with
  | (p, s) =>
    match (s.setP (Flags.ofByte p)).pull with
    | (lo, s) =>
      match s.pull with
      | (hi, s) => s.setPc (joinBytes hi lo)

/-- A stack read without a write that still decrements S (R220). -/
def State.peekStack (s : State) : State :=
  let s := s.dummyRead s.stackAddr
  s.setS (s.cpu.s - 1#8)

/-- `ResetSequence()` (R220). -/
def State.resetSequence (s : State) : State :=
  let s := { s with lat := { s.lat with needReset := false } }
  let s := s.dummyRead s.cpu.pc
  let s := s.dummyRead s.cpu.pc
  let s := s.peekStack
  let s := s.peekStack
  let s := s.peekStack
  (s.setI true).loadPc resetVector

/-! ## The event scheduler (R192 to R194) -/

/-- Insert an event after every event with a tick not above its own, before the sentinel (R192). -/
def insertEvent (e : Event) : List Event → List Event
  | [] => [e]
  | h :: q => if h.kind = .sentinel ∨ e.tick < h.tick then e :: h :: q else h :: insertEvent e q

/-- Has the event fired: `tick <= cycles`, and it is not the sentinel (R193). -/
def Event.due (e : Event) (now : Tick) : Bool := decide (e.kind ≠ .sentinel) && decide (e.tick ≤ now)

/-- Executing an event (R194): Reset sets `need_reset`; the sentinel does nothing. -/
def Latches.execEvent (l : Latches) (e : Event) : Latches :=
  match e.kind with
  | .reset => { l with needReset := true }
  | .sentinel => l

/-- Pop and execute every event that has arrived (R193); `none` if the queue is found empty. -/
def drainEvents (now : Tick) : List Event → Latches → Option (List Event × Latches)
  | [], _ => none
  | e :: q, l => if e.due now then drainEvents now q (l.execEvent e) else some (e :: q, l)

/-- `HandleEvents()` (R193). -/
def State.handleEvents (s : State) : Option State :=
  match drainEvents s.cycles s.queue s.lat with
  | none => none
  | some (q, l) => some { s with queue := q, lat := l }

end Sys2Proof.Machine
end

