-- ==== Sys2Proof/Machine/Operands.lean ====
section
/-! DEFINITION. The addressing-mode resolver (R78 to R86), the access classes (R79, R80, R87 to R89)
and the branch sequence (R130). -/

namespace Sys2Proof.Machine

/-- The addressing modes that give a memory address (R69). -/
inductive MemMode
  | zp | zpx | zpy | abs | abx | aby | izx | izy
  deriving DecidableEq, Repr

/-- The access classes that have a memory operand (R73). -/
inductive MemClass
  | read | write | rmw
  deriving DecidableEq, Repr

/-- What the resolver returns (R78). For a mode without indexing across pages `baseHi` is the high
byte of `ea` and `crossed` is false; nothing reads them there. -/
structure Resolved where
  ea      : Word
  baseHi  : Byte
  crossed : Bool
  deriving DecidableEq, Repr

/-- Did the low-byte addition carry (R84)? -/
def pageCrossed (lo idx : Byte) : Bool := decide (0x100 ≤ lo.toNat + idx.toNat)

/-- The un-fixed address: the high byte before the carry, the low byte after the addition (R84). -/
def unfixedAddr (hi lo idx : Byte) : Word := joinBytes hi (lo + idx)

/-- The indexing step shared by `abx`, `aby` and `izy` (R84, R86), with its dummy read: always in
the write and RMW classes, only on a page cross in the read class. -/
def State.indexed (s : State) (cls : MemClass) (hi lo idx : Byte) : Resolved × State :=
  let crossed := pageCrossed lo idx
  (⟨joinBytes hi lo + zext16 idx, hi, crossed⟩,
    if cls = .read ∧ crossed = false then s else s.dummyRead (unfixedAddr hi lo idx))

/-- Two operand bytes, low first (R83). -/
def State.fetchPair (s : State) : Byte × Byte × State :=
  match s.fetch with
  | (lo, s) =>
    match s.fetch with
    | (hi, s) => (lo, hi, s)

/-- A pointer read that wraps within zero page (R85, R86): low byte, high byte. -/
def State.zpPointer (s : State) (q : Byte) : Byte × Byte × State :=
  match s.memRead (zext16 q) with
  | (lo, s) =>
    match s.memRead (zext16 (q + 1#8)) with
    | (hi, s) => (lo, hi, s)

/-- An address that needs no fixing; nothing reads the last two fields (notes/assumptions/18.md). -/
def Resolved.plain (ea : Word) : Resolved := ⟨ea, hiByte ea, false⟩

/-- `zpx` and `zpy` (R82). -/
def State.zpIndexed (s : State) (idx : Byte) : Resolved × State :=
  match s.fetch with
  | (b, s) => (.plain (zext16 (b + idx)), s.dummyRead (zext16 b))

/-- `abx` and `aby` (R84). -/
def State.absIndexed (s : State) (cls : MemClass) (idx : Byte) : Resolved × State :=
  match s.fetchPair with
  | (lo, hi, s) => s.indexed cls hi lo idx

/-- The resolver (R81 to R86): the operand bytes are fetched, the dummy reads made. -/
def State.resolve (s : State) (m : MemMode) (cls : MemClass) : Resolved × State :=
  match m with
  | .zp =>
    match s.fetch with
    | (b, s) => (.plain (zext16 b), s)
  | .zpx => s.zpIndexed s.cpu.x
  | .zpy => s.zpIndexed s.cpu.y
  | .abs =>
    match s.fetchPair with
    | (lo, hi, s) => (.plain (joinBytes hi lo), s)
  | .abx => s.absIndexed cls s.cpu.x
  | .aby => s.absIndexed cls s.cpu.y
  | .izx =>
    match s.fetch with
    | (p, s) =>
      match (s.dummyRead (zext16 p)).zpPointer (p + s.cpu.x) with
      | (lo, hi, s) => (.plain (joinBytes hi lo), s)
  | .izy =>
    match s.fetch with
    | (p, s) =>
      match s.zpPointer p with
      | (lo, hi, s) => s.indexed cls hi lo s.cpu.y

/-! ## Access classes -/

/-- Class `implied` (R79): a dummy read at PC, then the operation on registers. -/
def State.runImplied (s : State) (op : State → State) : State := op (s.dummyRead s.cpu.pc)

/-- Class `R`, immediate mode (R80). -/
def State.runImm (s : State) (op : Byte → State → State) : State :=
  match s.fetch with
  | (v, s) => op v s

/-- Class `R` on memory (R87). -/
def State.runRead (s : State) (m : MemMode) (op : Byte → State → State) : State :=
  match s.resolve m .read with
  | (r, s) =>
    match s.memRead r.ea with
    | (v, s) => op v s

/-- Class `W` (R88) with the value taken from the registers. -/
def State.runWrite (s : State) (m : MemMode) (val : State → Byte) : State :=
  match s.resolve m .write with
  | (r, s) => s.memWrite r.ea (val s)

/-- Class `M` (R89): read, dummy write of the old value, the operation, write of the new value. -/
def State.runRmw (s : State) (m : MemMode) (op : Byte → State → Byte × State) : State :=
  match s.resolve m .rmw with
  | (r, s) =>
    match s.memRead r.ea with
    | (v, s) =>
      match op v (s.memWrite r.ea v) with
      | (v', s) => s.memWrite r.ea v'

/-- The value SHA, SHX, SHY and TAS store, `reg & (H + 1)` (R173). -/
def highAndValue (reg : Byte) (r : Resolved) : Byte := reg &&& (r.baseHi + 1#8)

/-- The address they store to: on a page cross its high byte is the stored value (R173). -/
def highAndAddr (reg : Byte) (r : Resolved) : Word :=
  if r.crossed then joinBytes (highAndValue reg r) (loByte r.ea) else r.ea

/-- The high-byte-AND store (R173). -/
def State.runHighAnd (s : State) (m : MemMode) (pre : State → State) (reg : State → Byte) : State :=
  match s.resolve m .write with
  | (r, s) =>
    let s := pre s
    s.memWrite (highAndAddr (reg s) r) (highAndValue (reg s) r)

/-- The branch sequence (R130), with the condition on P after the offset is fetched. -/
def State.runBranch (s : State) (cond : Flags → Bool) : State :=
  match s.fetch with
  | (off, s) =>
    if cond s.cpu.p then
      let next := s.cpu.pc
      let target := next + sext16 off
      let s := s.dummyRead next
      let s := if hiByte target = hiByte next then s
        else s.dummyRead (joinBytes (hiByte next) (loByte target))
      s.setPc target
    else s

/-- Does the machine take the decimal branch when D is set (R105, R106, R168)? -/
def State.decimalAlu (s : State) : Bool := decide (s.params.decimalMode = .nmosBcd)

/-- Write A and set N and Z from it. -/
def State.loadA (s : State) (v : Byte) : State := (s.setA v).mapP (fun p => p.setNZ v)

/-- Write X and set N and Z from it. -/
def State.loadX (s : State) (v : Byte) : State := (s.setX v).mapP (fun p => p.setNZ v)

/-- Write Y and set N and Z from it. -/
def State.loadY (s : State) (v : Byte) : State := (s.setY v).mapP (fun p => p.setNZ v)

/-- Write A and P from an ALU result. -/
def State.putAP (s : State) (r : Byte × Flags) : State := (s.setA r.1).setP r.2

end Sys2Proof.Machine
end

