-- ==== Sys2Proof/Machine/Alu.lean ====
section
/-! DEFINITION. Arithmetic, logical and compare instructions (R111 to R119). -/

namespace Sys2Proof.Machine

/-! ### ADC, add with carry (R111) -/

/-- `Add(m)` (R105). -/
def opAdc (m : Byte) (s : State) : State := s.putAP (aluAdd s.decimalAlu s.cpu.a m s.cpu.p)

def execAdcImm (s : State) : Result := .next (s.runImm opAdc)
def execAdcZp (s : State) : Result := .next (s.runRead .zp opAdc)
def execAdcZpx (s : State) : Result := .next (s.runRead .zpx opAdc)
def execAdcAbs (s : State) : Result := .next (s.runRead .abs opAdc)
def execAdcAbx (s : State) : Result := .next (s.runRead .abx opAdc)
def execAdcAby (s : State) : Result := .next (s.runRead .aby opAdc)
def execAdcIzx (s : State) : Result := .next (s.runRead .izx opAdc)
def execAdcIzy (s : State) : Result := .next (s.runRead .izy opAdc)

/-! ### SBC, subtract with borrow (R112) -/

/-- `Sub(m)` (R106). -/
def opSbc (m : Byte) (s : State) : State := s.putAP (aluSub s.decimalAlu s.cpu.a m s.cpu.p)

def execSbcImm (s : State) : Result := .next (s.runImm opSbc)
def execSbcZp (s : State) : Result := .next (s.runRead .zp opSbc)
def execSbcZpx (s : State) : Result := .next (s.runRead .zpx opSbc)
def execSbcAbs (s : State) : Result := .next (s.runRead .abs opSbc)
def execSbcAbx (s : State) : Result := .next (s.runRead .abx opSbc)
def execSbcAby (s : State) : Result := .next (s.runRead .aby opSbc)
def execSbcIzx (s : State) : Result := .next (s.runRead .izx opSbc)
def execSbcIzy (s : State) : Result := .next (s.runRead .izy opSbc)

/-! ### AND, and with A (R113) -/

/-- `A <- A & m; SetNZ(A)`. -/
def opAnd (m : Byte) (s : State) : State := s.loadA (s.cpu.a &&& m)

def execAndImm (s : State) : Result := .next (s.runImm opAnd)
def execAndZp (s : State) : Result := .next (s.runRead .zp opAnd)
def execAndZpx (s : State) : Result := .next (s.runRead .zpx opAnd)
def execAndAbs (s : State) : Result := .next (s.runRead .abs opAnd)
def execAndAbx (s : State) : Result := .next (s.runRead .abx opAnd)
def execAndAby (s : State) : Result := .next (s.runRead .aby opAnd)
def execAndIzx (s : State) : Result := .next (s.runRead .izx opAnd)
def execAndIzy (s : State) : Result := .next (s.runRead .izy opAnd)

/-! ### ORA, or with A (R114) -/

/-- `A <- A | m; SetNZ(A)`. -/
def opOra (m : Byte) (s : State) : State := s.loadA (s.cpu.a ||| m)

def execOraImm (s : State) : Result := .next (s.runImm opOra)
def execOraZp (s : State) : Result := .next (s.runRead .zp opOra)
def execOraZpx (s : State) : Result := .next (s.runRead .zpx opOra)
def execOraAbs (s : State) : Result := .next (s.runRead .abs opOra)
def execOraAbx (s : State) : Result := .next (s.runRead .abx opOra)
def execOraAby (s : State) : Result := .next (s.runRead .aby opOra)
def execOraIzx (s : State) : Result := .next (s.runRead .izx opOra)
def execOraIzy (s : State) : Result := .next (s.runRead .izy opOra)

/-! ### EOR, exclusive or with A (R115) -/

/-- `A <- A ^ m; SetNZ(A)`. -/
def opEor (m : Byte) (s : State) : State := s.loadA (s.cpu.a ^^^ m)

def execEorImm (s : State) : Result := .next (s.runImm opEor)
def execEorZp (s : State) : Result := .next (s.runRead .zp opEor)
def execEorZpx (s : State) : Result := .next (s.runRead .zpx opEor)
def execEorAbs (s : State) : Result := .next (s.runRead .abs opEor)
def execEorAbx (s : State) : Result := .next (s.runRead .abx opEor)
def execEorAby (s : State) : Result := .next (s.runRead .aby opEor)
def execEorIzx (s : State) : Result := .next (s.runRead .izx opEor)
def execEorIzy (s : State) : Result := .next (s.runRead .izy opEor)

/-! ### BIT, test bits (R116) -/

/-- Flags only; A is not written. -/
def opBit (m : Byte) (s : State) : State := s.mapP (aluBit s.cpu.a m)

def execBitZp (s : State) : Result := .next (s.runRead .zp opBit)
def execBitAbs (s : State) : Result := .next (s.runRead .abs opBit)

/-! ### CMP, compare with A (R117) -/

/-- `Compare(A, m)` (R109). -/
def opCmp (m : Byte) (s : State) : State := s.mapP (aluCompare s.cpu.a m)

def execCmpImm (s : State) : Result := .next (s.runImm opCmp)
def execCmpZp (s : State) : Result := .next (s.runRead .zp opCmp)
def execCmpZpx (s : State) : Result := .next (s.runRead .zpx opCmp)
def execCmpAbs (s : State) : Result := .next (s.runRead .abs opCmp)
def execCmpAbx (s : State) : Result := .next (s.runRead .abx opCmp)
def execCmpAby (s : State) : Result := .next (s.runRead .aby opCmp)
def execCmpIzx (s : State) : Result := .next (s.runRead .izx opCmp)
def execCmpIzy (s : State) : Result := .next (s.runRead .izy opCmp)

/-! ### CPX, compare with X (R118) -/

/-- `Compare(X, m)` (R109). -/
def opCpx (m : Byte) (s : State) : State := s.mapP (aluCompare s.cpu.x m)

def execCpxImm (s : State) : Result := .next (s.runImm opCpx)
def execCpxZp (s : State) : Result := .next (s.runRead .zp opCpx)
def execCpxAbs (s : State) : Result := .next (s.runRead .abs opCpx)

/-! ### CPY, compare with Y (R119) -/

/-- `Compare(Y, m)` (R109). -/
def opCpy (m : Byte) (s : State) : State := s.mapP (aluCompare s.cpu.y m)

def execCpyImm (s : State) : Result := .next (s.runImm opCpy)
def execCpyZp (s : State) : Result := .next (s.runRead .zp opCpy)
def execCpyAbs (s : State) : Result := .next (s.runRead .abs opCpy)

end Sys2Proof.Machine
end

