-- ==== Sys2Proof/Machine/Branch.lean ====
section
/-! DEFINITION. Conditional branches (R130 to R138). -/

namespace Sys2Proof.Machine

/-! ### BPL, branch if plus (R131) -/

/-- The condition of BPL. -/
def condBpl (p : Flags) : Bool := !p.n

def execBpl (s : State) : Result := .next (s.runBranch condBpl)

/-! ### BMI, branch if minus (R132) -/

/-- The condition of BMI. -/
def condBmi (p : Flags) : Bool := p.n

def execBmi (s : State) : Result := .next (s.runBranch condBmi)

/-! ### BVC, branch if overflow clear (R133) -/

/-- The condition of BVC. -/
def condBvc (p : Flags) : Bool := !p.v

def execBvc (s : State) : Result := .next (s.runBranch condBvc)

/-! ### BVS, branch if overflow set (R134) -/

/-- The condition of BVS. -/
def condBvs (p : Flags) : Bool := p.v

def execBvs (s : State) : Result := .next (s.runBranch condBvs)

/-! ### BCC, branch if carry clear (R135) -/

/-- The condition of BCC. -/
def condBcc (p : Flags) : Bool := !p.c

def execBcc (s : State) : Result := .next (s.runBranch condBcc)

/-! ### BCS, branch if carry set (R136) -/

/-- The condition of BCS. -/
def condBcs (p : Flags) : Bool := p.c

def execBcs (s : State) : Result := .next (s.runBranch condBcs)

/-! ### BNE, branch if not equal (R137) -/

/-- The condition of BNE. -/
def condBne (p : Flags) : Bool := !p.z

def execBne (s : State) : Result := .next (s.runBranch condBne)

/-! ### BEQ, branch if equal (R138) -/

/-- The condition of BEQ. -/
def condBeq (p : Flags) : Bool := p.z

def execBeq (s : State) : Result := .next (s.runBranch condBeq)

end Sys2Proof.Machine
end

