-- ==== Sys2Proof/Machine/Control.lean ====
section
/-! DEFINITION. Jumps, calls, returns, BRK, the stack instructions and NOP (R139 to R147, R155). -/

namespace Sys2Proof.Machine

/-! ### JMP, jump (R139) -/

/-- The absolute form. -/
def State.jumpAbs (s : State) : State :=
  match s.fetchPair with
  | (lo, hi, s) => s.setPc (joinBytes hi lo)

/-- The indirect form: the pointer's high byte is read from the same page. -/
def State.jumpInd (s : State) : State :=
  match s.fetchPair with
  | (pl, ph, s) =>
    match s.memRead (joinBytes ph pl) with
    | (lo, s) =>
      match s.memRead (joinBytes ph (pl + 1#8)) with
      | (hi, s) => s.setPc (joinBytes hi lo)

def execJmpAbs (s : State) : Result := .next s.jumpAbs
def execJmpInd (s : State) : Result := .next s.jumpInd

/-! ### JSR, jump to subroutine (R140) -/

/-- The high target byte is read after the pushes, at the PC that was pushed. -/
def State.jumpSub (s : State) : State :=
  match s.fetch with
  | (lo, s) =>
    let s := s.dummyRead s.stackAddr
    let s := s.push (hiByte s.cpu.pc)
    let s := s.push (loByte s.cpu.pc)
    match s.memRead s.cpu.pc with
    | (hi, s) => s.setPc (joinBytes hi lo)

def execJsr (s : State) : Result := .next (s.jumpSub)

/-! ### RTS, return from subroutine (R141) -/

/-- Pull PC, read there, and go past it. -/
def State.returnSub (s : State) : State :=
  let s := s.dummyRead s.cpu.pc
  let s := s.dummyRead s.stackAddr
  match s.pull with
  | (lo, s) =>
    match s.pull with
    | (hi, s) =>
      let s := (s.setPc (joinBytes hi lo)).dummyRead (joinBytes hi lo)
      s.setPc (joinBytes hi lo + 1#16)

def execRts (s : State) : Result := .next (s.returnSub)

/-! ### RTI, return from interrupt (R142) -/

/-! The sequence is `State.returnFromInterrupt` (Machine/Ops.lean). -/

def execRti (s : State) : Result := .next (s.returnFromInterrupt)

/-! ### BRK, software interrupt (R143) -/

/-- The padding byte is read and skipped; then the entry shared with the hardware interrupts, with
B set in the pushed P. -/
def State.softwareInterrupt (s : State) : State := s.fetch.2.enterInterrupt true

def execBrk (s : State) : Result := .next (s.softwareInterrupt)

/-! ### PHA, push A (R144) -/

/-- `DummyRead(PC); Push(A)`. -/
def State.pushA (s : State) : State :=
  let s := s.dummyRead s.cpu.pc
  s.push s.cpu.a

def execPha (s : State) : Result := .next (s.pushA)

/-! ### PHP, push P (R145) -/

/-- `DummyRead(PC); Push(Pbyte(1))`. -/
def State.pushP (s : State) : State :=
  let s := s.dummyRead s.cpu.pc
  s.push (s.cpu.p.toByte true)

def execPhp (s : State) : Result := .next (s.pushP)

/-! ### PLA, pull A (R146) -/

/-- The reads before a pull, and the pull (R146, R147). -/
def State.pullByte (s : State) : Byte × State :=
  let s := s.dummyRead s.cpu.pc
  let s := s.dummyRead s.stackAddr
  s.pull

/-- `A <- Pull(); SetNZ(A)`. -/
def State.pullA (s : State) : State :=
  match s.pullByte with
  | (v, s) => s.loadA v

def execPla (s : State) : Result := .next (s.pullA)

/-! ### PLP, pull P (R147) -/

/-- `SetP(Pull())`. -/
def State.pullP (s : State) : State :=
  match s.pullByte with
  | (v, s) => s.setP (Flags.ofByte v)

def execPlp (s : State) : Result := .next (s.pullP)

/-! ### NOP, no operation (0xEA) (R155) -/

/-- NOP on the registers. -/
def opNop (s : State) : State := s

def execNop (s : State) : Result := .next (s.runImplied opNop)

end Sys2Proof.Machine
end

