-- ==== Sys2Proof/Machine/FlagOps.lean ====
section
/-! DEFINITION. Flag instructions (R148 to R154). -/

namespace Sys2Proof.Machine

/-! ### CLC, clear carry (R148) -/

/-- CLC on the registers. -/
def opClc (s : State) : State := s.mapP (fun p => p.setC false)

def execClc (s : State) : Result := .next (s.runImplied opClc)

/-! ### SEC, set carry (R149) -/

/-- SEC on the registers. -/
def opSec (s : State) : State := s.mapP (fun p => p.setC true)

def execSec (s : State) : Result := .next (s.runImplied opSec)

/-! ### CLI, clear interrupt disable (R150) -/

/-- CLI on the registers. -/
def opCli (s : State) : State := s.setI false

def execCli (s : State) : Result := .next (s.runImplied opCli)

/-! ### SEI, set interrupt disable (R151) -/

/-- SEI on the registers. -/
def opSei (s : State) : State := s.setI true

def execSei (s : State) : Result := .next (s.runImplied opSei)

/-! ### CLD, clear decimal (R152) -/

/-- CLD on the registers. -/
def opCld (s : State) : State := s.mapP (fun p => p.setD false)

def execCld (s : State) : Result := .next (s.runImplied opCld)

/-! ### SED, set decimal (R153) -/

/-- SED on the registers. -/
def opSed (s : State) : State := s.mapP (fun p => p.setD true)

def execSed (s : State) : Result := .next (s.runImplied opSed)

/-! ### CLV, clear overflow (R154) -/

/-- CLV on the registers. -/
def opClv (s : State) : State := s.mapP (fun p => p.setV false)

def execClv (s : State) : Result := .next (s.runImplied opClv)

end Sys2Proof.Machine
end

