-- ==== Sys2Proof/Machine/LoadStore.lean ====
section
/-! DEFINITION. Loads and stores (R92 to R97). -/

namespace Sys2Proof.Machine

/-! ### LDA, load accumulator (R92) -/

/-- `A <- m; SetNZ(A)`. -/
def opLda (m : Byte) (s : State) : State := s.loadA m

def execLdaImm (s : State) : Result := .next (s.runImm opLda)
def execLdaZp (s : State) : Result := .next (s.runRead .zp opLda)
def execLdaZpx (s : State) : Result := .next (s.runRead .zpx opLda)
def execLdaAbs (s : State) : Result := .next (s.runRead .abs opLda)
def execLdaAbx (s : State) : Result := .next (s.runRead .abx opLda)
def execLdaAby (s : State) : Result := .next (s.runRead .aby opLda)
def execLdaIzx (s : State) : Result := .next (s.runRead .izx opLda)
def execLdaIzy (s : State) : Result := .next (s.runRead .izy opLda)

/-! ### LDX, load X (R93) -/

/-- `X <- m; SetNZ(X)`. -/
def opLdx (m : Byte) (s : State) : State := s.loadX m

def execLdxImm (s : State) : Result := .next (s.runImm opLdx)
def execLdxZp (s : State) : Result := .next (s.runRead .zp opLdx)
def execLdxZpy (s : State) : Result := .next (s.runRead .zpy opLdx)
def execLdxAbs (s : State) : Result := .next (s.runRead .abs opLdx)
def execLdxAby (s : State) : Result := .next (s.runRead .aby opLdx)

/-! ### LDY, load Y (R94) -/

/-- `Y <- m; SetNZ(Y)`. -/
def opLdy (m : Byte) (s : State) : State := s.loadY m

def execLdyImm (s : State) : Result := .next (s.runImm opLdy)
def execLdyZp (s : State) : Result := .next (s.runRead .zp opLdy)
def execLdyZpx (s : State) : Result := .next (s.runRead .zpx opLdy)
def execLdyAbs (s : State) : Result := .next (s.runRead .abs opLdy)
def execLdyAbx (s : State) : Result := .next (s.runRead .abx opLdy)

/-! ### STA, store accumulator (R95) -/

/-- `Val()` of STA. -/
def valSta (s : State) : Byte := s.cpu.a

def execStaZp (s : State) : Result := .next (s.runWrite .zp valSta)
def execStaZpx (s : State) : Result := .next (s.runWrite .zpx valSta)
def execStaAbs (s : State) : Result := .next (s.runWrite .abs valSta)
def execStaAbx (s : State) : Result := .next (s.runWrite .abx valSta)
def execStaAby (s : State) : Result := .next (s.runWrite .aby valSta)
def execStaIzx (s : State) : Result := .next (s.runWrite .izx valSta)
def execStaIzy (s : State) : Result := .next (s.runWrite .izy valSta)

/-! ### STX, store X (R96) -/

/-- `Val()` of STX. -/
def valStx (s : State) : Byte := s.cpu.x

def execStxZp (s : State) : Result := .next (s.runWrite .zp valStx)
def execStxZpy (s : State) : Result := .next (s.runWrite .zpy valStx)
def execStxAbs (s : State) : Result := .next (s.runWrite .abs valStx)

/-! ### STY, store Y (R97) -/

/-- `Val()` of STY. -/
def valSty (s : State) : Byte := s.cpu.y

def execStyZp (s : State) : Result := .next (s.runWrite .zp valSty)
def execStyZpx (s : State) : Result := .next (s.runWrite .zpx valSty)
def execStyAbs (s : State) : Result := .next (s.runWrite .abs valSty)

end Sys2Proof.Machine
end

