-- ==== Sys2Proof/Machine/Shift.lean ====
section
/-! DEFINITION. Shifts, rotates, increments and decrements (R120 to R129). -/

namespace Sys2Proof.Machine

/-- Shift a byte and set N and Z from the result (R120 to R123). -/
def State.shiftByte (s : State) (f : Byte → Flags → Byte × Flags) (v : Byte) : Byte × State :=
  ((f v s.cpu.p).1, s.setP ((f v s.cpu.p).2.setNZ (f v s.cpu.p).1))

/-- Shift A (R120 to R123). -/
def State.shiftA (s : State) (f : Byte → Flags → Byte × Flags) : State :=
  match s.shiftByte f s.cpu.a with
  | (r, s) => s.setA r

/-- A new byte with N and Z set from it (R124, R125). -/
def State.stepByte (s : State) (r : Byte) : Byte × State := (r, s.mapP (fun p => p.setNZ r))

/-! ### ASL, arithmetic shift left (R120) -/

/-- The memory form: shift the byte, set N and Z from the result. -/
def opAsl (v : Byte) (s : State) : Byte × State := s.shiftByte aluAsl v

/-- The accumulator form. -/
def opAslA (s : State) : State := s.shiftA aluAsl

def execAslAcc (s : State) : Result := .next (s.runImplied opAslA)
def execAslZp (s : State) : Result := .next (s.runRmw .zp opAsl)
def execAslZpx (s : State) : Result := .next (s.runRmw .zpx opAsl)
def execAslAbs (s : State) : Result := .next (s.runRmw .abs opAsl)
def execAslAbx (s : State) : Result := .next (s.runRmw .abx opAsl)

/-! ### LSR, logical shift right (R121) -/

/-- The memory form: shift the byte, set N and Z from the result. -/
def opLsr (v : Byte) (s : State) : Byte × State := s.shiftByte aluLsr v

/-- The accumulator form. -/
def opLsrA (s : State) : State := s.shiftA aluLsr

def execLsrAcc (s : State) : Result := .next (s.runImplied opLsrA)
def execLsrZp (s : State) : Result := .next (s.runRmw .zp opLsr)
def execLsrZpx (s : State) : Result := .next (s.runRmw .zpx opLsr)
def execLsrAbs (s : State) : Result := .next (s.runRmw .abs opLsr)
def execLsrAbx (s : State) : Result := .next (s.runRmw .abx opLsr)

/-! ### ROL, rotate left through carry (R122) -/

/-- The memory form: shift the byte, set N and Z from the result. -/
def opRol (v : Byte) (s : State) : Byte × State := s.shiftByte aluRol v

/-- The accumulator form. -/
def opRolA (s : State) : State := s.shiftA aluRol

def execRolAcc (s : State) : Result := .next (s.runImplied opRolA)
def execRolZp (s : State) : Result := .next (s.runRmw .zp opRol)
def execRolZpx (s : State) : Result := .next (s.runRmw .zpx opRol)
def execRolAbs (s : State) : Result := .next (s.runRmw .abs opRol)
def execRolAbx (s : State) : Result := .next (s.runRmw .abx opRol)

/-! ### ROR, rotate right through carry (R123) -/

/-- The memory form: shift the byte, set N and Z from the result. -/
def opRor (v : Byte) (s : State) : Byte × State := s.shiftByte aluRor v

/-- The accumulator form. -/
def opRorA (s : State) : State := s.shiftA aluRor

def execRorAcc (s : State) : Result := .next (s.runImplied opRorA)
def execRorZp (s : State) : Result := .next (s.runRmw .zp opRor)
def execRorZpx (s : State) : Result := .next (s.runRmw .zpx opRor)
def execRorAbs (s : State) : Result := .next (s.runRmw .abs opRor)
def execRorAbx (s : State) : Result := .next (s.runRmw .abx opRor)

/-! ### INC, increment memory (R124) -/

/-- `r <- v + 1; SetNZ(r)`. -/
def opInc (v : Byte) (s : State) : Byte × State :=
  s.stepByte (v + 1#8)

def execIncZp (s : State) : Result := .next (s.runRmw .zp opInc)
def execIncZpx (s : State) : Result := .next (s.runRmw .zpx opInc)
def execIncAbs (s : State) : Result := .next (s.runRmw .abs opInc)
def execIncAbx (s : State) : Result := .next (s.runRmw .abx opInc)

/-! ### DEC, decrement memory (R125) -/

/-- `r <- v - 1; SetNZ(r)`. -/
def opDec (v : Byte) (s : State) : Byte × State :=
  s.stepByte (v - 1#8)

def execDecZp (s : State) : Result := .next (s.runRmw .zp opDec)
def execDecZpx (s : State) : Result := .next (s.runRmw .zpx opDec)
def execDecAbs (s : State) : Result := .next (s.runRmw .abs opDec)
def execDecAbx (s : State) : Result := .next (s.runRmw .abx opDec)

/-! ### INX, increment X (R126) -/

/-- INX on the registers. -/
def opInx (s : State) : State := s.loadX (s.cpu.x + 1#8)

def execInx (s : State) : Result := .next (s.runImplied opInx)

/-! ### INY, increment Y (R127) -/

/-- INY on the registers. -/
def opIny (s : State) : State := s.loadY (s.cpu.y + 1#8)

def execIny (s : State) : Result := .next (s.runImplied opIny)

/-! ### DEX, decrement X (R128) -/

/-- DEX on the registers. -/
def opDex (s : State) : State := s.loadX (s.cpu.x - 1#8)

def execDex (s : State) : Result := .next (s.runImplied opDex)

/-! ### DEY, decrement Y (R129) -/

/-- DEY on the registers. -/
def opDey (s : State) : State := s.loadY (s.cpu.y - 1#8)

def execDey (s : State) : Result := .next (s.runImplied opDey)

end Sys2Proof.Machine
end

