-- ==== Sys2Proof/Machine/Transfer.lean ====
section
/-! DEFINITION. Register transfers (R98 to R103). -/

namespace Sys2Proof.Machine

/-! ### TAX, transfer A to X (R98) -/

/-- TAX on the registers. -/
def opTax (s : State) : State := s.loadX s.cpu.a

def execTax (s : State) : Result := .next (s.runImplied opTax)

/-! ### TAY, transfer A to Y (R99) -/

/-- TAY on the registers. -/
def opTay (s : State) : State := s.loadY s.cpu.a

def execTay (s : State) : Result := .next (s.runImplied opTay)

/-! ### TXA, transfer X to A (R100) -/

/-- TXA on the registers. -/
def opTxa (s : State) : State := s.loadA s.cpu.x

def execTxa (s : State) : Result := .next (s.runImplied opTxa)

/-! ### TYA, transfer Y to A (R101) -/

/-- TYA on the registers. -/
def opTya (s : State) : State := s.loadA s.cpu.y

def execTya (s : State) : Result := .next (s.runImplied opTya)

/-! ### TSX, transfer S to X (R102) -/

/-- TSX on the registers. -/
def opTsx (s : State) : State := s.loadX s.cpu.s

def execTsx (s : State) : Result := .next (s.runImplied opTsx)

/-! ### TXS, transfer X to S, flags unchanged (R103) -/

/-- TXS on the registers. -/
def opTxs (s : State) : State := s.setS s.cpu.x

def execTxs (s : State) : Result := .next (s.runImplied opTxs)

end Sys2Proof.Machine
end

