-- ==== Sys2Proof/Machine/Undocumented.lean ====
section
/-! DEFINITION. Undocumented instructions (R157 to R179). -/

namespace Sys2Proof.Machine

/-! ### SLO, shift left, then or into A (R157) -/

/-- `r <- Asl(v); A <- A | r; SetNZ(A)`. -/
def opSlo (v : Byte) (s : State) : Byte × State :=
  ((aluAsl v s.cpu.p).1, (s.setP (aluAsl v s.cpu.p).2).loadA (s.cpu.a ||| (aluAsl v s.cpu.p).1))

def execSloZp (s : State) : Result := .next (s.runRmw .zp opSlo)
def execSloZpx (s : State) : Result := .next (s.runRmw .zpx opSlo)
def execSloAbs (s : State) : Result := .next (s.runRmw .abs opSlo)
def execSloAbx (s : State) : Result := .next (s.runRmw .abx opSlo)
def execSloAby (s : State) : Result := .next (s.runRmw .aby opSlo)
def execSloIzx (s : State) : Result := .next (s.runRmw .izx opSlo)
def execSloIzy (s : State) : Result := .next (s.runRmw .izy opSlo)

/-! ### RLA, rotate left, then and into A (R158) -/

/-- `r <- Rol(v); A <- A & r; SetNZ(A)`. -/
def opRla (v : Byte) (s : State) : Byte × State :=
  ((aluRol v s.cpu.p).1, (s.setP (aluRol v s.cpu.p).2).loadA (s.cpu.a &&& (aluRol v s.cpu.p).1))

def execRlaZp (s : State) : Result := .next (s.runRmw .zp opRla)
def execRlaZpx (s : State) : Result := .next (s.runRmw .zpx opRla)
def execRlaAbs (s : State) : Result := .next (s.runRmw .abs opRla)
def execRlaAbx (s : State) : Result := .next (s.runRmw .abx opRla)
def execRlaAby (s : State) : Result := .next (s.runRmw .aby opRla)
def execRlaIzx (s : State) : Result := .next (s.runRmw .izx opRla)
def execRlaIzy (s : State) : Result := .next (s.runRmw .izy opRla)

/-! ### SRE, shift right, then exclusive or into A (R159) -/

/-- `r <- Lsr(v); A <- A ^ r; SetNZ(A)`. -/
def opSre (v : Byte) (s : State) : Byte × State :=
  ((aluLsr v s.cpu.p).1, (s.setP (aluLsr v s.cpu.p).2).loadA (s.cpu.a ^^^ (aluLsr v s.cpu.p).1))

def execSreZp (s : State) : Result := .next (s.runRmw .zp opSre)
def execSreZpx (s : State) : Result := .next (s.runRmw .zpx opSre)
def execSreAbs (s : State) : Result := .next (s.runRmw .abs opSre)
def execSreAbx (s : State) : Result := .next (s.runRmw .abx opSre)
def execSreAby (s : State) : Result := .next (s.runRmw .aby opSre)
def execSreIzx (s : State) : Result := .next (s.runRmw .izx opSre)
def execSreIzy (s : State) : Result := .next (s.runRmw .izy opSre)

/-! ### RRA, rotate right, then add to A (R160) -/

/-- `r <- Ror(v); Add(r)`: the carry out of the rotate is the carry in of the addition. -/
def opRra (v : Byte) (s : State) : Byte × State :=
  ((aluRor v s.cpu.p).1,
    s.putAP (aluAdd s.decimalAlu s.cpu.a (aluRor v s.cpu.p).1 (aluRor v s.cpu.p).2))

def execRraZp (s : State) : Result := .next (s.runRmw .zp opRra)
def execRraZpx (s : State) : Result := .next (s.runRmw .zpx opRra)
def execRraAbs (s : State) : Result := .next (s.runRmw .abs opRra)
def execRraAbx (s : State) : Result := .next (s.runRmw .abx opRra)
def execRraAby (s : State) : Result := .next (s.runRmw .aby opRra)
def execRraIzx (s : State) : Result := .next (s.runRmw .izx opRra)
def execRraIzy (s : State) : Result := .next (s.runRmw .izy opRra)

/-! ### DCP, decrement, then compare with A (R161) -/

/-- `r <- v - 1; Compare(A, r)`. -/
def opDcp (v : Byte) (s : State) : Byte × State :=
  (v - 1#8, s.mapP (aluCompare s.cpu.a (v - 1#8)))

def execDcpZp (s : State) : Result := .next (s.runRmw .zp opDcp)
def execDcpZpx (s : State) : Result := .next (s.runRmw .zpx opDcp)
def execDcpAbs (s : State) : Result := .next (s.runRmw .abs opDcp)
def execDcpAbx (s : State) : Result := .next (s.runRmw .abx opDcp)
def execDcpAby (s : State) : Result := .next (s.runRmw .aby opDcp)
def execDcpIzx (s : State) : Result := .next (s.runRmw .izx opDcp)
def execDcpIzy (s : State) : Result := .next (s.runRmw .izy opDcp)

/-! ### ISB, increment, then subtract from A (R162) -/

/-- `r <- v + 1; Sub(r)`. -/
def opIsb (v : Byte) (s : State) : Byte × State :=
  (v + 1#8, s.putAP (aluSub s.decimalAlu s.cpu.a (v + 1#8) s.cpu.p))

def execIsbZp (s : State) : Result := .next (s.runRmw .zp opIsb)
def execIsbZpx (s : State) : Result := .next (s.runRmw .zpx opIsb)
def execIsbAbs (s : State) : Result := .next (s.runRmw .abs opIsb)
def execIsbAbx (s : State) : Result := .next (s.runRmw .abx opIsb)
def execIsbAby (s : State) : Result := .next (s.runRmw .aby opIsb)
def execIsbIzx (s : State) : Result := .next (s.runRmw .izx opIsb)
def execIsbIzy (s : State) : Result := .next (s.runRmw .izy opIsb)

/-! ### SAX, store A and X (R163) -/

/-- `Val()` of SAX. -/
def valSax (s : State) : Byte := s.cpu.a &&& s.cpu.x

def execSaxZp (s : State) : Result := .next (s.runWrite .zp valSax)
def execSaxZpy (s : State) : Result := .next (s.runWrite .zpy valSax)
def execSaxAbs (s : State) : Result := .next (s.runWrite .abs valSax)
def execSaxIzx (s : State) : Result := .next (s.runWrite .izx valSax)

/-! ### LAX, load A and X (R164) -/

/-- `A <- m; X <- m; SetNZ(m)`. -/
def opLax (m : Byte) (s : State) : State := (s.setX m).loadA m

def execLaxZp (s : State) : Result := .next (s.runRead .zp opLax)
def execLaxZpy (s : State) : Result := .next (s.runRead .zpy opLax)
def execLaxAbs (s : State) : Result := .next (s.runRead .abs opLax)
def execLaxAby (s : State) : Result := .next (s.runRead .aby opLax)
def execLaxIzx (s : State) : Result := .next (s.runRead .izx opLax)
def execLaxIzy (s : State) : Result := .next (s.runRead .izy opLax)

/-! ### LAS, load A, X and S from memory and S (R165) -/

/-- `r <- m & S; A <- r; X <- r; S <- r; SetNZ(r)`. -/
def opLas (m : Byte) (s : State) : State := ((s.setX (m &&& s.cpu.s)).setS (m &&& s.cpu.s)).loadA (m &&& s.cpu.s)

def execLasAby (s : State) : Result := .next (s.runRead .aby opLas)

/-! ### ANC, and, then copy N into C (R166) -/

/-- `A <- A & m; SetNZ(A); P.C <- A[7]`. -/
def opAnc (m : Byte) (s : State) : State := (s.loadA (s.cpu.a &&& m)).mapP (fun p => p.setC (bit7 (s.cpu.a &&& m)))

def execAncImm0B (s : State) : Result := .next (s.runImm opAnc)
def execAncImm2B (s : State) : Result := .next (s.runImm opAnc)

/-! ### ALR, and, then shift right (R167) -/

/-- `A <- Lsr(A & m); SetNZ(A)`. -/
def opAlr (m : Byte) (s : State) : State := (s.setP (aluLsr (s.cpu.a &&& m) s.cpu.p).2).loadA (aluLsr (s.cpu.a &&& m) s.cpu.p).1

def execAlrImm (s : State) : Result := .next (s.runImm opAlr)

/-! ### ARR, and, then rotate right, with its own flag rules (R168) -/

/-- The flags are those of `aluArr` (Machine/Flags.lean). -/
def opArr (m : Byte) (s : State) : State := s.putAP (aluArr s.decimalAlu s.cpu.a m s.cpu.p)

def execArrImm (s : State) : Result := .next (s.runImm opArr)

/-! ### ANE, and X and an immediate into A (R169) -/

/-- `A <- (A | ANE_MAGIC) & X & m; SetNZ(A)`. -/
def opAne (m : Byte) (s : State) : State := s.loadA ((s.cpu.a ||| Config.aneMagic) &&& s.cpu.x &&& m)

def execAneImm (s : State) : Result := .next (s.runImm opAne)

/-! ### LXA, load A and X (R170) -/

/-- `r <- (A | LXA_MAGIC) & m; A <- r; X <- r; SetNZ(r)`. -/
def opLxa (m : Byte) (s : State) : State := (s.setX ((s.cpu.a ||| Config.lxaMagic) &&& m)).loadA ((s.cpu.a ||| Config.lxaMagic) &&& m)

def execLxaImm (s : State) : Result := .next (s.runImm opLxa)

/-! ### SBX, X = (A and X) minus immediate (R171) -/

/-- `t <- A & X; X <- t - m; P.C <- (t >= m); SetNZ(X)`. -/
def opSbx (m : Byte) (s : State) : State := (s.loadX ((s.cpu.a &&& s.cpu.x) - m)).mapP
  (fun p => p.setC (decide (m.toNat ≤ (s.cpu.a &&& s.cpu.x).toNat)))

def execSbxImm (s : State) : Result := .next (s.runImm opSbx)

/-! ### USBC, the duplicate of SBC immediate (R172) -/

/-- `Sub(m)` (R106). -/
def opUsbc (m : Byte) (s : State) : State := s.putAP (aluSub s.decimalAlu s.cpu.a m s.cpu.p)

def execUsbcImm (s : State) : Result := .next (s.runImm opUsbc)

/-! ## The high-byte-AND stores (R173) -/

/-! ### SHA, store A and X and (H + 1) (R174) -/

/-- The register value of SHA. -/
def regSha (s : State) : Byte := s.cpu.a &&& s.cpu.x

def execShaAby (s : State) : Result := .next (s.runHighAnd .aby id regSha)
def execShaIzy (s : State) : Result := .next (s.runHighAnd .izy id regSha)

/-! ### SHX, store X and (H + 1) (R175) -/

/-- The register value of SHX. -/
def regShx (s : State) : Byte := s.cpu.x

def execShxAby (s : State) : Result := .next (s.runHighAnd .aby id regShx)

/-! ### SHY, store Y and (H + 1) (R176) -/

/-- The register value of SHY. -/
def regShy (s : State) : Byte := s.cpu.y

def execShyAbx (s : State) : Result := .next (s.runHighAnd .abx id regShy)

/-! ### TAS, S = A and X, then store S and (H + 1) (R177) -/

/-- `S <- A & X`, before the store. -/
def preTas (s : State) : State := s.setS (s.cpu.a &&& s.cpu.x)

/-- The register value of TAS, the new S. -/
def regTas (s : State) : Byte := s.cpu.s

def execTasAby (s : State) : Result := .next (s.runHighAnd .aby preTas regTas)

/-! ### NOP, the 27 undocumented forms (R178) -/

/-- No effect, one-byte forms. -/
def opIdle (s : State) : State := s

/-- The operand is read and discarded. -/
def opIgnore (_ : Byte) (s : State) : State := s

def execNopImm80 (s : State) : Result := .next (s.runImm opIgnore)
def execNopImm82 (s : State) : Result := .next (s.runImm opIgnore)
def execNopImm89 (s : State) : Result := .next (s.runImm opIgnore)
def execNopImmC2 (s : State) : Result := .next (s.runImm opIgnore)
def execNopImmE2 (s : State) : Result := .next (s.runImm opIgnore)
def execNopZp04 (s : State) : Result := .next (s.runRead .zp opIgnore)
def execNopZp44 (s : State) : Result := .next (s.runRead .zp opIgnore)
def execNopZp64 (s : State) : Result := .next (s.runRead .zp opIgnore)
def execNopZpx14 (s : State) : Result := .next (s.runRead .zpx opIgnore)
def execNopZpx34 (s : State) : Result := .next (s.runRead .zpx opIgnore)
def execNopZpx54 (s : State) : Result := .next (s.runRead .zpx opIgnore)
def execNopZpx74 (s : State) : Result := .next (s.runRead .zpx opIgnore)
def execNopZpxD4 (s : State) : Result := .next (s.runRead .zpx opIgnore)
def execNopZpxF4 (s : State) : Result := .next (s.runRead .zpx opIgnore)
def execNopAbs (s : State) : Result := .next (s.runRead .abs opIgnore)
def execNopAbx1C (s : State) : Result := .next (s.runRead .abx opIgnore)
def execNopAbx3C (s : State) : Result := .next (s.runRead .abx opIgnore)
def execNopAbx5C (s : State) : Result := .next (s.runRead .abx opIgnore)
def execNopAbx7C (s : State) : Result := .next (s.runRead .abx opIgnore)
def execNopAbxDC (s : State) : Result := .next (s.runRead .abx opIgnore)
def execNopAbxFC (s : State) : Result := .next (s.runRead .abx opIgnore)
def execNopImp1A (s : State) : Result := .next (s.runImplied opIdle)
def execNopImp3A (s : State) : Result := .next (s.runImplied opIdle)
def execNopImp5A (s : State) : Result := .next (s.runImplied opIdle)
def execNopImp7A (s : State) : Result := .next (s.runImplied opIdle)
def execNopImpDA (s : State) : Result := .next (s.runImplied opIdle)
def execNopImpFA (s : State) : Result := .next (s.runImplied opIdle)

/-! ### JAM, a one-byte no-operation (R179) -/

/-- JAM on the registers. -/
def opJam (s : State) : State := s

def execJam02 (s : State) : Result := .next (s.runImplied opJam)
def execJam12 (s : State) : Result := .next (s.runImplied opJam)
def execJam22 (s : State) : Result := .next (s.runImplied opJam)
def execJam32 (s : State) : Result := .next (s.runImplied opJam)
def execJam42 (s : State) : Result := .next (s.runImplied opJam)
def execJam52 (s : State) : Result := .next (s.runImplied opJam)
def execJam62 (s : State) : Result := .next (s.runImplied opJam)
def execJam72 (s : State) : Result := .next (s.runImplied opJam)
def execJam92 (s : State) : Result := .next (s.runImplied opJam)
def execJamB2 (s : State) : Result := .next (s.runImplied opJam)
def execJamD2 (s : State) : Result := .next (s.runImplied opJam)
def execJamF2 (s : State) : Result := .next (s.runImplied opJam)

end Sys2Proof.Machine
end

