-- ==== Sys2Proof/Machine/HostPort.lean ====
section
/-! DEFINITION. What the host may do between steps (R219): peek (R61), queue a reset (R192), load state
with `BUS = FLAT`, construct a machine from a cartridge image (R58), and place a program. -/

namespace Sys2Proof.Machine

/-! ## Peek and queue -/

/-- `peek(addr)` (R61): no state changes; with `NES` the window 0x2000 to 0x401F is refused. -/
def State.peek (s : State) (a : Word) : Option Byte :=
  match s.params.bus with
  | .flat => some (s.ram.read a.toNat)
  | .nes =>
    if a.toNat < 0x2000 then some (s.ram.read (a.toNat % 0x800))
    else if a.toNat < 0x4020 then none
    else some (s.cart.readPrg a.toNat)

/-- `queue(kind, offset)` (R192). -/
def State.queueEvent (s : State) (k : EventKind) (offset : Tick) : State :=
  { s with queue := insertEvent ⟨k, s.cycles + offset⟩ s.queue }

/-- Load CPU registers, P through `SetP`, and bytes of memory, with `BUS = FLAT` only (R219, R23).
With `NES` the host may not write them and nothing changes: DESIGN CHOICE, safe, notes/assumptions/15.md. -/
def State.loadState (s : State) (a x y sp p : Byte) (pc : Word) (mem : List (Word × Byte)) : State :=
  match s.params.bus with
  | .nes => s
  | .flat =>
    { s with
      cpu := ⟨a, x, y, sp, pc, Flags.ofByte p⟩
      ram := mem.foldl (fun m e => m.write e.1.toNat e.2) s.ram }

/-! ## Construction from an iNES image (R58) -/

/-- Why construction is aborted (R58): no partial emulator is created. -/
inductive LoadError
  | malformedHeader
  | unsupportedMapper
  | truncatedRom
  deriving DecidableEq, Repr

/-- The header fields the CORE reads (R58). -/
structure InesHeader where
  prgBanks    : Nat
  chrBanks    : Nat
  mirroring   : Mirroring
  mapper      : Nat
  prgRamBanks : Nat
  deriving DecidableEq, Repr

/-- Byte `i` of an image. -/
def imageByte (img : List Byte) (i : Nat) : Nat := (img.getD i 0#8).toNat

/-- Parse the 16-byte header (R58); mapper 0 has one or two PRG banks (R59), and another count is refused: DESIGN CHOICE,
safe, notes/assumptions/8.md. -/
def parseHeader (img : List Byte) : Except LoadError InesHeader :=
  if img.length < 16 then .error .malformedHeader
  else if img.take 4 ≠ [0x4E#8, 0x45#8, 0x53#8, 0x1A#8] then .error .malformedHeader
  else
    let h : InesHeader :=
      { prgBanks := imageByte img 4
        chrBanks := imageByte img 5
        mirroring := if imageByte img 6 % 2 = 0 then .horizontal else .vertical
        mapper := imageByte img 7 / 0x10 * 0x10 + imageByte img 6 / 0x10
        prgRamBanks := max 1 (imageByte img 8) }
    if h.mapper ≠ 0 then .error .unsupportedMapper
    else if h.prgBanks = 1 ∨ h.prgBanks = 2 then .ok h
    else .error .malformedHeader

/-- The cartridge of an image (R58, R59): header, PRG ROM, CHR ROM. Construction fills its PRG RAM from `RAM_INIT`. -/
def Cart.ofImage (img : List Byte) : Except LoadError Cart :=
  match parseHeader img with
  | .error e => .error e
  | .ok h =>
    let prg := h.prgBanks * 0x4000
    let chr := h.chrBanks * 0x2000
    if img.length < 16 + prg + chr then .error .truncatedRom
    else .ok
      { prgRom := Memory.writeList [] 0 ((img.drop 16).take prg)
        prgBanks := h.prgBanks
        prgRam := []
        chrBanks := h.chrBanks
        chrRom := Memory.writeList [] 0 (((img.drop 16).drop prg).take (min chr 0x2000))
        mirroring := h.mirroring }

/-- Construct the NES machine from `RAM_INIT`, the inputs and an image (R10, R58, R219). -/
def State.ofImage (m : RamInit) (inp : Inputs) (img : List Byte) : Except LoadError State :=
  match Cart.ofImage img with
  | .error e => .error e
  | .ok k => .ok (State.construct ⟨.nes, .binary⟩ m k inp)

/-! ## Placing a program -/

/-- Can a byte be placed at an address, so that a bus read there gives it with no side effect? -/
def State.placeable (s : State) (a : Word) : Bool :=
  s.params.bus == .flat || decide (a.toNat < 0x2000) || decide (0x6000 ≤ a.toNat)

/-- Place a byte where a bus read of `a` finds it: RAM, PRG RAM or PRG ROM. -/
def State.place (s : State) (a : Word) (v : Byte) : State :=
  match s.params.bus with
  | .flat => { s with ram := s.ram.write a.toNat v }
  | .nes =>
    if a.toNat < 0x2000 then { s with ram := s.ram.write (a.toNat % 0x800) v }
    else if a.toNat < 0x8000 then { s with cart := s.cart.writePrg a.toNat v }
    else { s with cart := { s.cart with
      prgRom := s.cart.prgRom.write ((a.toNat - 0x8000) % (s.cart.prgBanks * 0x4000)) v } }

/-- Place bytes from an address on. -/
def State.placeAll (s : State) (a : Word) : List Byte → State
  | [] => s
  | v :: vs => State.placeAll (s.place a v) (a + 1#16) vs

/-- Place bytes at PC, after moving PC to 0x0200 if some byte could not be placed at PC. -/
def State.placeProgram (s : State) (bs : List Byte) : State :=
  let ok := (List.range bs.length).all (fun i => s.placeable (s.cpu.pc + BitVec.ofNat 16 i))
  let s := if ok then s else s.setPc 0x0200#16
  s.placeAll s.cpu.pc bs

/-- Drop whatever would keep the next step from fetching: arrived events, a pending reset, a latched
interrupt. -/
def State.readyToFetch (s : State) : State :=
  let q := s.queue.dropWhile (fun e => e.due s.cycles)
  { s with
    queue := if q = [] then [Event.atEnd] else q
    lat := { s.lat with needReset := false, prevNeedNmi := false, prevIrq := false } }

end Sys2Proof.Machine
end

