-- ==== Sys2Proof/Machine/Step.lean ====
section
/-! DEFINITION. One step of the machine (R185), and how a table word is placed to be run next. -/

namespace Sys2Proof.Machine

/-- `step()` (R185): drain the scheduler, then run a reset sequence, an interrupt sequence or one
instruction. -/
def step (s : State) : Host.Outcome State Fault Refusal :=
  match s.handleEvents with
  | none => .fault .schedulerQueueEmpty
  | some s =>
    if s.lat.needReset then .next s.resetSequence
    else if s.lat.prevNeedNmi || s.lat.prevIrq then .next s.interruptSequence
    else
      match s.fetch with
      | (op, s) => exec (decodeOpcode op) s

/-- The state with a table word stored where the next step fetches, and nothing pending that would
keep the step from fetching. What it stands for: notes/assumptions/14.md. -/
def State.withFetchWord (s : State) (nbits w : Nat) : State :=
  s.readyToFetch.placeProgram (tableBytes nbits w)

end Sys2Proof.Machine
end

