-- ==== Sys2Proof/Safety.lean ====
section
/-! DEFINITION. What a well-formed state is, and what a safe step is: the terms the claims use. -/

namespace Sys2Proof.Machine

/-- The queue invariant (R33): ascending ticks, the sentinel last and nowhere else. -/
def queueWf : List Event → Bool
  | [] => false
  | [e] => e == Event.atEnd
  | e :: f :: q => e.kind != .sentinel && decide (e.tick ≤ f.tick) && queueWf (f :: q)

/-- The size of the RAM on the CPU bus (R34). -/
def Bus.ramSize : Bus → Nat
  | .nes => 0x800
  | .flat => 0x10000

/-- A mapper-0 cartridge (R59). -/
def Cart.wf (k : Cart) : Bool :=
  (k.prgBanks == 1 || k.prgBanks == 2) && Memory.wf (k.prgBanks * 0x4000) k.prgRom &&
    Memory.wf 0x2000 k.prgRam && Memory.wf 0x2000 k.chrRom

/-- The PPU memories are canonical and of their sizes (R40); of STATUS only the vblank bit is ever
set (R39). -/
def Ppu.wf (p : Ppu) : Bool :=
  Memory.wf 0x800 p.nt && Memory.wf 0x20 p.pal && Memory.wf 0x100 p.oam && Memory.wf 0xF000 p.frame &&
    Memory.wf 0xF000 p.sinkFrame && (p.status &&& 0x7F#8 == 0#8)

/-- Power-on contents that fit the memories they fill (R10, R34, R40, R59). -/
def RamInit.wf (m : RamInit) (b : Bus) : Bool :=
  Memory.wf (Bus.ramSize b) m.ram && Memory.wf 0x2000 m.prgRam && Memory.wf 0x800 m.nt && Memory.wf 0x20 m.pal &&
    Memory.wf 0x100 m.oam

/-- A well-formed state. -/
def State.wf (s : State) : Bool :=
  s.params.wf && queueWf s.queue && Memory.wf (Bus.ramSize s.params.bus) s.ram && s.cart.wf && s.ppu.wf

/-- A step is safe if it ends in a next state: neither a fault nor a refusal. -/
def stepSafe (s : State) : Prop := ∃ t, step s = .next t

/-- The resolver mode of an addressing mode, for the modes that give a memory address (R78). -/
def memModeOf : Mode → Option MemMode
  | .zp => some .zp
  | .zpx => some .zpx
  | .zpy => some .zpy
  | .abs => some .abs
  | .abx => some .abx
  | .aby => some .aby
  | .izx => some .izx
  | .izy => some .izy
  | .imp => none
  | .acc => none
  | .imm => none
  | .rel => none
  | .ind => none

/-- The register value of the high-byte-AND stores (R174 to R177). -/
def highAndRegister (k : Mnemonic) (c : Cpu) : Option Byte :=
  match k with
  | .SHA => some (c.a &&& c.x)
  | .SHX => some c.x
  | .SHY => some c.y
  | .TAS => some (c.a &&& c.x)
  | _ => none

/-- The condition of a branch (R131 to R138). -/
def taken (k : Mnemonic) (p : Flags) : Bool :=
  match k with
  | .BPL => !p.n
  | .BMI => p.n
  | .BVC => !p.v
  | .BVS => p.v
  | .BCC => !p.c
  | .BCS => p.c
  | .BNE => !p.z
  | .BEQ => p.z
  | _ => false

/-- Where the PPU is in its frame, counted in dots from scanline 0 dot 0 (R230). -/
def Ppu.framePos (p : Ppu) : Nat := p.scanline.val * 341 + p.dot.val

/-- How many CPU cycles the machine has logged since construction. -/
def State.logged (s : State) : Nat := s.busLog.length

end Sys2Proof.Machine
end

