-- ==== Sys2Proof/Certificates/Slice0/Obligations.lean ====
section
/-! DEFINITION. The statements for the provers, each with the rule of spec/ it formalises, and before
them the terms they are written in. -/

namespace Sys2Proof.Claims

open Sys2Proof.Machine

/-! ## Terms: flags and the ALU, written out from the rules -/

/-- `SetNZ(v)` (R12). -/
def nz (p : Flags) (v : Byte) : Flags := { p with z := decide (v = 0#8), n := v.getLsbD 7 }

/-- `Compare(r, m)` (R109). -/
def compared (r m : Byte) (p : Flags) : Flags :=
  { p with c := decide (m.toNat ≤ r.toNat), z := decide (r = m), n := (r - m).getLsbD 7 }

/-- Is an exact signed result outside -128..127 (R27)? -/
def outOfRange (n : Int) : Bool := decide (n < -128 ∨ 127 < n)

/-- The binary addition, from the exact sums of the unsigned and of the signed values (R105). -/
def addBinary (m : Byte) (c : Cpu) : Cpu :=
  let sum := c.a.toNat + m.toNat + c.p.c.toNat
  let r := BitVec.ofNat 8 sum
  { c with
    a := r
    p := { nz c.p r with c := decide (256 ≤ sum), v := outOfRange (c.a.toInt + m.toInt + c.p.c.toNat) } }

/-- The NMOS decimal addition, digit by digit (R107). -/
def addDecimal (m : Byte) (c : Cpu) : Cpu :=
  let low := c.a.toNat % 16 + m.toNat % 16 + c.p.c.toNat
  let al := if 10 ≤ low then (low + 6) % 16 + 16 else low
  let t := c.a.toNat / 16 * 16 + m.toNat / 16 * 16 + al
  let t' := if 0xA0 ≤ t then t + 0x60 else t
  { c with
    a := BitVec.ofNat 8 t'
    p := { c.p with
      z := decide ((c.a.toNat + m.toNat + c.p.c.toNat) % 256 = 0)
      n := decide (128 ≤ t % 256)
      v := decide ((128 ≤ c.a.toNat ↔ 128 ≤ m.toNat) ∧ ¬(128 ≤ c.a.toNat ↔ 128 ≤ t % 256))
      c := decide (256 ≤ t') } }

/-- The binary subtraction, from the exact differences (R106): C says that nothing was borrowed. -/
def subBinary (m : Byte) (c : Cpu) : Cpu :=
  let diff : Int := c.a.toNat - m.toNat - (1 - c.p.c.toNat)
  let r := BitVec.ofInt 8 diff
  { c with
    a := r
    p := { nz c.p r with c := decide (0 ≤ diff), v := outOfRange (c.a.toInt - m.toInt - (1 - c.p.c.toNat)) } }

/-- The NMOS decimal subtraction: its flags are those of the binary one (R106, R108). -/
def subDecimal (m : Byte) (c : Cpu) : Cpu :=
  let low : Int := (c.a.toNat % 16 : Nat) - (m.toNat % 16 : Nat) + c.p.c.toNat - 1
  let al := if low < 0 then (low - 6) % 16 - 16 else low
  let t : Int := (c.a.toNat / 16 * 16 : Nat) - (m.toNat / 16 * 16 : Nat) + al
  { subBinary m c with a := BitVec.ofInt 8 (if t < 0 then t - 0x60 else t) }

/-- Does the machine add and subtract in decimal (R29)? -/
def inDecimal (s : State) : Prop := s.params.decimalMode = .nmosBcd ∧ s.cpu.p.d = true

/-- `Add(m)` in the mode the state is in (R105). -/
def added (s : State) (m : Byte) (c : Cpu) : Cpu :=
  if s.params.decimalMode = .nmosBcd ∧ c.p.d = true then addDecimal m c else addBinary m c

/-- `Sub(m)` in the mode the state is in (R106). -/
def subtracted (s : State) (m : Byte) (c : Cpu) : Cpu :=
  if s.params.decimalMode = .nmosBcd ∧ c.p.d = true then subDecimal m c else subBinary m c

/-- The number two decimal digits stand for. -/
def bcdValue (b : Byte) : Nat := b.toNat / 16 * 10 + b.toNat % 16

/-- Both digits are decimal. -/
def isBcd (b : Byte) : Prop := b.toNat / 16 < 10 ∧ b.toNat % 16 < 10

/-- The four shifts and rotates: the new byte, and the bit that goes to C (R110). -/
def shifted (k : Mnemonic) (v : Byte) (carry : Bool) : Byte × Bool :=
  match k with
  | .ASL => (v <<< 1, v.getLsbD 7)
  | .LSR => (v >>> 1, v.getLsbD 0)
  | .ROL => (v <<< 1 ||| (BitVec.ofBool carry).setWidth 8, v.getLsbD 7)
  | .ROR => (v >>> 1 ||| ((BitVec.ofBool carry).setWidth 8 <<< 7), v.getLsbD 0)
  | _ => (v, carry)

/-! ## Terms: the shapes of an instruction -/

/-- The registers with PC past the operand bytes (R20). -/
def past (i : Instr) (s : State) : Cpu := { s.cpu with pc := s.cpu.pc + BitVec.ofNat 16 i.operandCount }

/-- The operand of a class `R` instruction, and the state after the bus cycles that read it (R80, R87). -/
def operand (i : Instr) (s : State) : Byte × State :=
  match memModeOf i.mode with
  | some m => (s.resolve m .read).2.memRead (s.resolve m .read).1.ea
  | none => s.fetch

/-- The resolver's answer for an instruction that stores, in its own class (R78). -/
def target (i : Instr) (s : State) : Resolved × State :=
  match memModeOf i.mode with
  | some m => s.resolve m (if i.accessClass = .rmw then .rmw else .write)
  | none => (.plain 0#16, s)

/-- Class `implied` (R79): a dummy read at PC, then the registers change by `f`, nothing else. -/
def registersBecome (i : Instr) (s : State) (f : Cpu → Cpu) : Prop :=
  exec i s = .next { s.dummyRead s.cpu.pc with cpu := f s.cpu }

/-- Class `R` (R80, R87): the operand is read, then the registers change by `f`, nothing else. -/
def readsThen (i : Instr) (s : State) (f : Byte → Cpu → Cpu) : Prop :=
  exec i s = .next { (operand i s).2 with cpu := f (operand i s).1 (past i s) }

/-- Class `W` (R88): the registers change by `f` before the last cycle, which writes `v` at `a`. -/
def storesAt (i : Instr) (s : State) (a : Word) (v : Byte) (f : Cpu → Cpu) : Prop :=
  exec i s = .next ({ (target i s).2 with cpu := f (past i s) }.memWrite a v)

/-- Class `M` (R89): read, write of the old value, register changes, write of the new value. -/
def modifies (i : Instr) (s : State) (f : Byte → Cpu → Byte × Cpu) : Prop :=
  let ea := (target i s).1.ea
  let v := ((target i s).2.memRead ea).1
  exec i s = .next ({ ((target i s).2.memRead ea).2.memWrite ea v with cpu := (f v (past i s)).2 }.memWrite ea
    (f v (past i s)).1)

/-! ## Terms: memory -/

/-- Every byte of memory reads as before: the CPU's address space through `peek`, and the three PPU
memories. -/
def sameMemory (s t : State) : Prop :=
  (∀ a, t.peek a = s.peek a) ∧ (∀ n, t.ppu.nt.read n = s.ppu.nt.read n) ∧
    (∀ n, t.ppu.pal.read n = s.ppu.pal.read n) ∧ (∀ n, t.ppu.oam.read n = s.ppu.oam.read n)

/-- Do two CPU addresses name one byte (R52, R56)? -/
def sameCell (b : Bus) (x y : Word) : Prop :=
  x = y ∨ (b = .nes ∧ x.toNat < 0x2000 ∧ y.toNat < 0x2000 ∧ x.toNat % 0x800 = y.toNat % 0x800)

/-- Is the address one of memory that keeps what is written to it (R53, R56, R59)? -/
def storable (b : Bus) (a : Word) : Prop :=
  b = .flat ∨ a.toNat < 0x2000 ∨ (0x6000 ≤ a.toNat ∧ a.toNat < 0x8000)

/-- The stack slot `k` pushes below the top (R19). -/
def slotBelow (s : State) (k : Byte) : Word := joinBytes 0x01#8 (s.cpu.s - k)

/-- The byte `k` pulls above the top (R19). The stack page is RAM on both buses. -/
def stackByte (s : State) (k : Byte) : Byte := s.ram.read (joinBytes 0x01#8 (s.cpu.s + k)).toNat

/-- A byte of the zero page, which is RAM on both buses. -/
def zpByte (s : State) (q : Byte) : Byte := s.ram.read q.toNat

/-! ## Terms: addresses and bus cycles (R69, R78 to R90) -/

/-- The bytes after the opcode are memory that reads without side effects, `b1` and `b2` as far as
the instruction has operand bytes. -/
def operandBytes (i : Instr) (s : State) (b1 b2 : Byte) : Prop :=
  (1 ≤ i.operandCount → s.peek s.cpu.pc = some b1) ∧
    (2 ≤ i.operandCount → s.peek (s.cpu.pc + 1#16) = some b2)

/-- The address before indexing and the index, for the modes whose index can cross a page. -/
def indexing (s : State) (m : Mode) (b1 b2 : Byte) : Option (Byte × Byte × Byte) :=
  match m with
  | .abx => some (b2, b1, s.cpu.x)
  | .aby => some (b2, b1, s.cpu.y)
  | .izy => some (zpByte s (b1 + 1#8), zpByte s b1, s.cpu.y)
  | _ => none

/-- The effective address, from the operand bytes (R69). -/
def address (s : State) (m : Mode) (b1 b2 : Byte) : Word :=
  match m with
  | .zp => zext16 b1
  | .zpx => zext16 (b1 + s.cpu.x)
  | .zpy => zext16 (b1 + s.cpu.y)
  | .abs => joinBytes b2 b1
  | .abx => joinBytes b2 b1 + zext16 s.cpu.x
  | .aby => joinBytes b2 b1 + zext16 s.cpu.y
  | .izx => joinBytes (zpByte s (b1 + s.cpu.x + 1#8)) (zpByte s (b1 + s.cpu.x))
  | .izy => joinBytes (zpByte s (b1 + 1#8)) (zpByte s b1) + zext16 s.cpu.y
  | _ => 0#16

/-- Did the index addition carry out of the low byte (R84)? -/
def crosses (x : Option (Byte × Byte × Byte)) : Bool :=
  match x with
  | some (_, lo, idx) => decide (256 ≤ lo.toNat + idx.toNat)
  | none => false

/-- The address an instruction of class `W` writes to (R88, R173). -/
def storeAddress (i : Instr) (s : State) (b1 b2 : Byte) : Word :=
  match highAndRegister i.mnemonic s.cpu, indexing s i.mode b1 b2 with
  | some reg, some (hi, lo, idx) =>
    if 256 ≤ lo.toNat + idx.toNat then joinBytes (reg &&& (hi + 1#8)) (loByte (address s i.mode b1 b2))
    else address s i.mode b1 b2
  | _, _ => address s i.mode b1 b2

/-- A kind of cycle and its address. -/
abbrev Access := CycleKind × Word

/-- The fetches of the operand bytes. -/
def fetches (i : Instr) (s : State) : List Access :=
  (List.range i.operandCount).map (fun k => (.read, s.cpu.pc + BitVec.ofNat 16 k))

/-- The reads between the operand fetches and the effective address, in the read class or in another
(R82, R84 to R86). -/
def resolverReads (reading : Bool) (i : Instr) (s : State) (b1 b2 : Byte) : List Access :=
  (match i.mode with
    | .zpx => [(.read, zext16 b1)]
    | .zpy => [(.read, zext16 b1)]
    | .izx => [(.read, zext16 b1), (.read, zext16 (b1 + s.cpu.x)), (.read, zext16 (b1 + s.cpu.x + 1#8))]
    | .izy => [(.read, zext16 b1), (.read, zext16 (b1 + 1#8))]
    | _ => []) ++
  (match indexing s i.mode b1 b2 with
    | some (hi, lo, idx) =>
      if reading ∧ lo.toNat + idx.toNat < 256 then [] else [(.read, joinBytes hi (lo + idx))]
    | none => [])

/-- The bus cycles of an instruction after its opcode fetch, in order (R90, R130, R139 to R147). BRK is
left to its own statement, since its vector depends on the NMI. -/
def accesses (i : Instr) (s : State) (b1 b2 : Byte) : List Access :=
  let next := s.cpu.pc + 1#16
  let dest := next + sext16 b1
  match i.accessClass with
  | .implied => [(.read, s.cpu.pc)]
  | .read =>
    if i.mode = .imm then fetches i s
    else fetches i s ++ resolverReads true i s b1 b2 ++ [(.read, address s i.mode b1 b2)]
  | .write => fetches i s ++ resolverReads false i s b1 b2 ++ [(.write, storeAddress i s b1 b2)]
  | .rmw =>
    fetches i s ++ resolverReads false i s b1 b2 ++
      [(.read, address s i.mode b1 b2), (.write, address s i.mode b1 b2), (.write, address s i.mode b1 b2)]
  | .branch =>
    if taken i.mnemonic s.cpu.p = false then fetches i s
    else if hiByte dest = hiByte next then fetches i s ++ [(.read, next)]
    else fetches i s ++ [(.read, next), (.read, joinBytes (hiByte next) (loByte dest))]
  | .jump =>
    if i.mode = .ind then fetches i s ++ [(.read, joinBytes b2 b1), (.read, joinBytes b2 (b1 + 1#8))]
    else fetches i s
  | .stack =>
    match i.mnemonic with
    | .JSR => [(.read, s.cpu.pc), (.read, slotBelow s 0#8), (.write, slotBelow s 0#8), (.write, slotBelow s 1#8),
        (.read, next)]
    | .RTS => [(.read, s.cpu.pc), (.read, slotBelow s 0#8), (.read, slotBelow s 0xFF#8),
        (.read, slotBelow s 0xFE#8), (.read, joinBytes (stackByte s 2#8) (stackByte s 1#8))]
    | .RTI => [(.read, s.cpu.pc), (.read, slotBelow s 0#8), (.read, slotBelow s 0xFF#8),
        (.read, slotBelow s 0xFE#8), (.read, slotBelow s 0xFD#8)]
    | .PHA => [(.read, s.cpu.pc), (.write, slotBelow s 0#8)]
    | .PHP => [(.read, s.cpu.pc), (.write, slotBelow s 0#8)]
    | _ => [(.read, s.cpu.pc), (.read, slotBelow s 0#8), (.read, slotBelow s 0xFF#8)]

/-- The instruction does not write the DMA trigger of the NES bus (R53). -/
def startsNoDma (i : Instr) (s : State) (b1 b2 : Byte) : Prop :=
  s.params.bus = .nes → i.accessClass = .write ∨ i.accessClass = .rmw → storeAddress i s b1 b2 ≠ 0x4014#16

/-- The bus log as kinds and addresses. -/
def logOf (s : State) : List Access := s.busLog.map (fun c => (c.kind, c.pins.address))

/-- What R229 adds to the base count: one for a page cross of class `R`, one for a branch taken, two for
a branch taken across a page. -/
def extraCycles (i : Instr) (s : State) (b1 b2 : Byte) : Nat :=
  let next := s.cpu.pc + 1#16
  match i.accessClass with
  | .read => if crosses (indexing s i.mode b1 b2) then 1 else 0
  | .branch =>
    if taken i.mnemonic s.cpu.p = false then 0 else if hiByte (next + sext16 b1) = hiByte next then 1 else 2
  | _ => 0

/-! ## Terms: interrupts -/

/-- The state after the three pushes of an interrupt entry, cycle 5 (R143, R186). -/
def pushed (s : State) (b : Bool) : State :=
  ((s.push (hiByte s.cpu.pc)).push (loByte s.cpu.pc)).push (s.cpu.p.toByte b)

/-- The vector an entry takes (R187). -/
def vectorOf (s : State) : Word := if s.lat.needNmi then 0xFFFA#16 else 0xFFFE#16

/-- What an interrupt entry leaves, from a state `s` that is about to push (R143, R186, R187): S down by
three, I set and no other flag changed, the three bytes on the stack, PC from the vector, every byte of
memory outside the three slots as before, and no NMI pending but one whose edge came in the two cycles
that read the vector: a `need_nmi` of before is cleared. -/
def entered (s : State) (b : Bool) (t : State) : Prop :=
  (∃ lo hi, s.peek (vectorOf (pushed s b)) = some lo ∧ s.peek (vectorOf (pushed s b) + 1#16) = some hi ∧
    t.cpu = { s.cpu with s := s.cpu.s - 3#8, p := { s.cpu.p with i := true }, pc := joinBytes hi lo }) ∧
  t.peek (slotBelow s 0#8) = some (hiByte s.cpu.pc) ∧
  t.peek (slotBelow s 1#8) = some (loByte s.cpu.pc) ∧
  t.peek (slotBelow s 2#8) = some (s.cpu.p.toByte b) ∧
  (∀ a, ¬ sameCell s.params.bus (slotBelow s 0#8) a → ¬ sameCell s.params.bus (slotBelow s 1#8) a →
    ¬ sameCell s.params.bus (slotBelow s 2#8) a → t.peek a = s.peek a) ∧
  ∃ lo hi : BusCycle, t.busLog = hi :: lo :: (pushed s b).busLog ∧
    t.lat.prevNeedNmi = (lo.pins.nmi && !(pushed s b).lat.nmiLevelPrev) ∧
    t.lat.needNmi = (lo.pins.nmi && !(pushed s b).lat.nmiLevelPrev || hi.pins.nmi && !lo.pins.nmi)

/-! ## Terms: who writes which register (R17 to R29) -/

/-- The mnemonics that write A (R17); shifts write A in their accumulator form only. -/
def writesA (i : Instr) : Bool :=
  i.mnemonic ∈ [Mnemonic.LDA, .PLA, .TXA, .TYA, .ADC, .SBC, .AND, .ORA, .EOR, .LAX, .SLO, .RLA, .SRE, .RRA, .ISB,
      .ANC, .ALR, .ARR, .ANE, .LXA, .LAS, .USBC] ||
    (i.mnemonic ∈ [Mnemonic.ASL, .LSR, .ROL, .ROR] && i.mode == .acc)

/-- The mnemonics that write X (R18). -/
def writesX (i : Instr) : Bool := i.mnemonic ∈ [Mnemonic.LDX, .TAX, .TSX, .INX, .DEX, .LAX, .LXA, .SBX, .LAS]

/-- The mnemonics that write Y (R18). -/
def writesY (i : Instr) : Bool := i.mnemonic ∈ [Mnemonic.LDY, .TAY, .INY, .DEY]

/-- The mnemonics that write S (R19). -/
def writesS (i : Instr) : Bool :=
  i.mnemonic ∈ [Mnemonic.TXS, .TAS, .LAS, .PHA, .PHP, .PLA, .PLP, .JSR, .RTS, .RTI, .BRK]

/-- The mnemonics that write C (R24). -/
def writesC (i : Instr) : Bool :=
  i.mnemonic ∈ [Mnemonic.ADC, .SBC, .CMP, .CPX, .CPY, .ASL, .LSR, .ROL, .ROR, .CLC, .SEC, .PLP, .RTI, .SLO, .RLA,
    .SRE, .RRA, .DCP, .ISB, .ANC, .ALR, .ARR, .SBX, .USBC]

/-- The mnemonics that write V (R27). -/
def writesV (i : Instr) : Bool :=
  i.mnemonic ∈ [Mnemonic.ADC, .SBC, .BIT, .CLV, .PLP, .RTI, .RRA, .ISB, .ARR, .USBC]

/-- The mnemonics that write I (R28). -/
def writesI (i : Instr) : Bool := i.mnemonic ∈ [Mnemonic.SEI, .CLI, .PLP, .RTI, .BRK]

/-- The mnemonics that write D (R29). -/
def writesD (i : Instr) : Bool := i.mnemonic ∈ [Mnemonic.SED, .CLD, .PLP, .RTI]

/-- The mnemonics that write N and Z (R25, R26). -/
def writesNZ (i : Instr) : Bool :=
  i.mnemonic ∈ [Mnemonic.LDA, .LDX, .LDY, .TAX, .TAY, .TXA, .TYA, .TSX, .ADC, .SBC, .AND, .ORA, .EOR, .BIT, .CMP,
    .CPX, .CPY, .ASL, .LSR, .ROL, .ROR, .INC, .DEC, .INX, .INY, .DEX, .DEY, .PLA, .PLP, .RTI, .SLO, .RLA, .SRE,
    .RRA, .DCP, .ISB, .LAX, .LAS, .ANC, .ALR, .ARR, .ANE, .LXA, .SBX, .USBC]

/-! ## Terms: one CPU cycle (R44, R183) -/

/-- The end of a cycle that began in `s` and whose bus exchange left `u`: the count, the clock of the devices, the IRQ
sample, the six latches after the poll, and the pins logged. -/
def cycleEnd (s u : State) (k : CycleKind) (a : Word) (d : Byte) (dma : Option Byte) : State :=
  let c := { u with cycles := s.cycles + 1#64 }.busClock
  let irq := levelAt s.inputs.irq (s.cycles + 1#64).toNat
  { c.2 with
    lat :=
      { nmiLevelPrev := c.1
        needNmi := s.lat.needNmi || (c.1 && !s.lat.nmiLevelPrev)
        prevNeedNmi := s.lat.needNmi
        irqActive := irq && !s.cpu.p.i
        prevIrq := s.lat.irqActive
        needReset := s.lat.needReset }
    busLog := ⟨k, ⟨a, d, irq, c.1, false, dma⟩⟩ :: s.busLog }

/-! ## Terms: the background pipeline (R203 to R205, R210) -/

/-- The dots at which the shift registers shift. -/
def shiftDot (d : Nat) : Bool := decide (2 ≤ d ∧ d ≤ 257 ∨ 322 ≤ d ∧ d ≤ 337)

/-- The dots at which the shift registers are reloaded. -/
def reloadDot (d : Nat) : Bool := decide ((9 ≤ d ∧ d ≤ 257 ∨ 321 ≤ d ∧ d ≤ 337) ∧ d % 8 = 1)

/-- The dots of fetch phase `k`. -/
def fetchDot (k d : Nat) : Bool := decide ((1 ≤ d ∧ d ≤ 256 ∨ 321 ≤ d ∧ d ≤ 337) ∧ d % 8 = k)

/-- A pattern register after dot `d`: shifted, then its low byte reloaded from the latch. -/
def patternAfter (d : Nat) (r : Word) (latch : Byte) : Word :=
  let s := if shiftDot d then r <<< 1 else r
  if reloadDot d then joinBytes (hiByte s) latch else s

/-- An attribute register after dot `d`: shifted, with the attribute feed's bit below. -/
def attributeAfter (d : Nat) (r : Byte) (feed : Bool) : Byte :=
  if shiftDot d then (r <<< 1) ||| (BitVec.ofBool feed).setWidth 8 else r

/-- Where the nametable byte of the tile at `v` stands. -/
def tileAddr (v : VAddr) : PAddr := BitVec.ofNat 14 (0x2000 + v.toNat % 0x1000)

/-- Where its attribute byte stands: 64 bytes a nametable, one for four tiles by four. -/
def attributeAddr (v : VAddr) : PAddr :=
  BitVec.ofNat 14 (0x23C0 + ((ntY v).toNat * 2 + (ntX v).toNat) * 0x400 + (coarseY v).toNat / 4 * 8 +
    (coarseX v).toNat / 4)

/-- The two bits of an attribute byte for the tile at `v`. -/
def attributeBits (v : VAddr) (a : Byte) : BitVec 2 :=
  (a >>> ((coarseY v).toNat / 2 % 2 * 4 + (coarseX v).toNat / 2 % 2 * 2)).setWidth 2

/-- Where the low plane of the tile's row stands. -/
def planeAddr (p : Ppu) : Nat := (p.ctrl.getLsbD 4).toNat * 0x1000 + p.ntLatch.toNat * 16 + (fineY p.v).toNat

/-- The palette byte the registers select at the fine X offset. -/
def pixelByte (p : Ppu) : Byte :=
  let n := (p.bgPatHi.getLsbD (15 - p.fineX.toNat)).toNat * 2 + (p.bgPatLo.getLsbD (15 - p.fineX.toNat)).toNat
  let pal := (p.bgAttrHi.getLsbD (7 - p.fineX.toNat)).toNat * 2 + (p.bgAttrLo.getLsbD (7 - p.fineX.toNat)).toNat
  if n = 0 then p.pal.read 0 else p.pal.read (pal * 4 + n)

end Sys2Proof.Claims

open Sys2Proof Sys2Proof.Machine Sys2Proof.Claims

/-! ## Encoding -/

/-- R72, R69: words written out from the opcode map, one per family, decode to what they stand for. -/
def Obligations.KnownWordsDecode : Prop :=
  decode [0xA9#8, 0x80#8] = .ok (⟨.ldaImm, [0x80#8]⟩, []) ∧
  decode [0x9D#8, 0xFF#8, 0x02#8] = .ok (⟨.staAbx, [0xFF#8, 0x02#8]⟩, []) ∧
  decode [0xAA#8] = .ok (⟨.tax, []⟩, []) ∧
  decode [0x71#8, 0x10#8] = .ok (⟨.adcIzy, [0x10#8]⟩, []) ∧
  decode [0x56#8, 0x20#8] = .ok (⟨.lsrZpx, [0x20#8]⟩, []) ∧
  decode [0x6C#8, 0xFF#8, 0x02#8] = .ok (⟨.jmpInd, [0xFF#8, 0x02#8]⟩, []) ∧
  decode [0xD0#8, 0xFB#8] = .ok (⟨.bne, [0xFB#8]⟩, []) ∧
  decode [0x00#8, 0xEA#8] = .ok (⟨.brk, []⟩, [0xEA#8]) ∧
  decode [0x78#8] = .ok (⟨.sei, []⟩, []) ∧
  decode [0x93#8, 0x40#8] = .ok (⟨.shaIzy, [0x40#8]⟩, []) ∧
  decode [0xEB#8, 0x01#8] = .ok (⟨.usbcImm, [0x01#8]⟩, []) ∧
  decode [0x92#8] = .ok (⟨.jam92, []⟩, [])

/-- R67, R71: decoding the encoding of a well-formed instruction gives it back, whatever follows it. -/
def Obligations.DecodeOfEncode : Prop :=
  ∀ (a : Assembled) (rest : List Byte), a.wellFormed = true → decode (encode a ++ rest) = .ok (a, rest)

/-- R67, R71: what a decoded instruction encodes to, followed by the bytes left over, is the bytes decoded;
and the decoded instruction is well formed. -/
def Obligations.EncodeOfDecode : Prop :=
  ∀ (bs : List Byte) (a : Assembled) (rest : List Byte), decode bs = .ok (a, rest) →
    a.wellFormed = true ∧ encode a ++ rest = bs

/-- R71, R74: the decoder is total and no opcode is illegal: every opcode is the opcode of the instruction
it decodes to and of no other, and decoding fails only where the bytes end too soon. -/
def Obligations.DecoderIsTotal : Prop :=
  (∀ b : Byte, (decodeOpcode b).opcode = b) ∧
  (∀ i : Instr, decodeOpcode i.opcode = i) ∧
  (∀ (b : Byte) (bs : List Byte), (∃ r, decode (b :: bs) = .ok r) ↔ (decodeOpcode b).operandCount ≤ bs.length)

/-! ## The step -/

/-- R185: when nothing is pending, a step fetches one byte and executes the instruction it decodes to,
with PC past the opcode; and where the bytes at PC read without side effects and decode to an instruction,
it is that instruction. -/
def Obligations.StepRunsDecodedInstruction : Prop :=
  ∀ s u : State, s.handleEvents = some u → u.lat.needReset = false → u.lat.prevNeedNmi = false →
    u.lat.prevIrq = false →
    step s = exec (decodeOpcode u.fetch.1) u.fetch.2 ∧ u.fetch.2.cpu = { s.cpu with pc := s.cpu.pc + 1#16 } ∧
    ∀ (b : Byte) (bs : List Byte) (a : Assembled) (rest : List Byte), s.peek s.cpu.pc = some b →
      decode (b :: bs) = .ok (a, rest) → step s = exec a.instr u.fetch.2

/-- R185: a pending reset runs first, then a latched NMI or IRQ, before any opcode fetch; the order of the
first two is the spec's decision D12. -/
def Obligations.StepPriority : Prop :=
  ∀ s u : State, s.handleEvents = some u →
    (u.lat.needReset = true → step s = .next u.resetSequence) ∧
    (u.lat.needReset = false → u.lat.prevNeedNmi = true ∨ u.lat.prevIrq = true → step s = .next u.interruptSequence)

/-- R180, R193, R218: from every state whose queue keeps the sentinel, a step ends in a next state and takes
at least two CPU cycles. -/
def Obligations.StepNeverStops : Prop :=
  ∀ s : State, queueWf s.queue = true → ∃ t, step s = .next t ∧ s.logged + 2 ≤ t.logged

/-- R33, R34, R39, R40, R59: a step keeps every memory canonical and of its size, the queue sorted with the
sentinel last, and STATUS bits 6:0 clear. -/
def Obligations.StepKeepsWellFormed : Prop :=
  ∀ s t : State, s.wf = true → step s = .next t → t.wf = true

/-- R10, R41, R192, R221: the whole state at construction, for every bus, decimal mode, `RAM_INIT`, cartridge and inputs;
it is well formed where they are, and the reference `RAM_INIT` reads 0 everywhere. The values are the spec's decisions
D5, D10, D15, D16 and D20. -/
def Obligations.PowerOnState : Prop :=
  (∀ (c : Params) (m : RamInit) (k : Cart) (inp : Inputs),
    (c.wf = true → m.wf c.bus = true → k.wf = true → (State.construct c m k inp).wf = true) ∧
    (State.construct c m k inp).cpu.p.toByte false = 0x20#8 ∧
    State.construct c m k inp =
      { params := c
        cpu := ⟨0#8, 0#8, 0#8, 0#8, 0#16, ⟨false, false, false, false, false, false⟩⟩
        lat := ⟨false, false, false, false, false, false⟩
        cycles := 0#64
        queue := if c.bus = .nes then [⟨.reset, 0#64⟩, ⟨.sentinel, 0xFFFFFFFFFFFFFFFF#64⟩]
          else [⟨.sentinel, 0xFFFFFFFFFFFFFFFF#64⟩]
        ram := m.ram
        ppu :=
          { v := 0#15, t := 0#15, fineX := 0#3, w := false, ctrl := 0#8, mask := 0#8, status := 0#8
            oamAddr := 0#8, readBuffer := 0#8, dot := 0, scanline := 0
            ntLatch := 0#8, ptLoLatch := 0#8, ptHiLatch := 0#8, atLatch := 0#2, attrFeed := 0#2
            bgPatLo := 0#16, bgPatHi := 0#16, bgAttrLo := 0#8, bgAttrHi := 0#8, nmiOut := false
            nt := m.nt, pal := m.pal, oam := m.oam, frame := [], published := 0, sinkFrame := [] }
        cart := { k with prgRam := m.prgRam }
        inputs := inp
        extCalls := []
        apuTicks := 0
        busLog := [] }) ∧
  (∀ n, RamInit.zero.ram.read n = 0#8 ∧ RamInit.zero.prgRam.read n = 0#8 ∧ RamInit.zero.nt.read n = 0#8 ∧
    RamInit.zero.pal.read n = 0#8 ∧ RamInit.zero.oam.read n = 0#8 ∧ (State.construct ⟨.nes, .binary⟩ RamInit.zero
      Cart.blank Inputs.quiet).ppu.frame.read n = 0#8)

/-- R221: the first step of the NES machine is the power-on reset, for every `RAM_INIT`, cartridge and inputs. The
power-on values are the spec's decisions D15, D16 and D20, the sequence is its decision D10. -/
def Obligations.FirstStepIsReset : Prop :=
  ∀ (m : RamInit) (k : Cart) (inp : Inputs), k.wf = true →
    ∃ t, step (State.construct ⟨.nes, .binary⟩ m k inp) = .next t ∧
    t.cpu = ⟨0#8, 0#8, 0#8, 0xFD#8, joinBytes (k.readPrg 0xFFFD) (k.readPrg 0xFFFC),
      ⟨false, false, true, false, false, false⟩⟩ ∧
    t.cpu.p.toByte false = 0x24#8 ∧ t.cycles = 7#64 ∧ t.ppu.scanline = 0 ∧ t.ppu.dot = 21 ∧
    t.queue = [⟨.sentinel, 0xFFFFFFFFFFFFFFFF#64⟩] ∧ t.lat.needReset = false

/-- R220: the reset sequence, from any state: S down by three with no write, I set, PC from the reset vector,
seven cycles, and nothing else of the registers or of memory. The shape of the sequence, where it sets I and that it
touches nothing else are the spec's decision D10. -/
def Obligations.ResetSequenceEffect : Prop :=
  ∀ s : State, ∃ lo hi, s.peek 0xFFFC#16 = some lo ∧ s.peek 0xFFFD#16 = some hi ∧
    s.resetSequence.cpu =
      { s.cpu with s := s.cpu.s - 3#8, p := { s.cpu.p with i := true }, pc := joinBytes hi lo } ∧
    s.resetSequence.lat.needReset = false ∧ sameMemory s s.resetSequence ∧
    logOf s.resetSequence = [(.read, 0xFFFD#16), (.read, 0xFFFC#16), (.read, slotBelow s 2#8),
      (.read, slotBelow s 1#8), (.read, slotBelow s 0#8), (.read, s.cpu.pc), (.read, s.cpu.pc)] ++ logOf s

/-- R31, R45, R46, R230: every step logs the cycles it takes, `cycles` counts them, and with `NES` the APU is
ticked once and the PPU moves three dots of its 89342 dot frame in each; with `FLAT` neither moves. That no frame
skips a dot is the spec's decision D32, that `cycles` wraps is deduced (notes/assumptions/10.md). -/
def Obligations.StepAdvancesClocks : Prop :=
  ∀ s t : State, step s = .next t → ∃ new : List BusCycle,
    t.busLog = new ++ s.busLog ∧
    t.cycles = s.cycles + BitVec.ofNat 64 new.length ∧
    (s.params.bus = .nes → t.apuTicks = s.apuTicks + new.length ∧
      t.ppu.framePos = (s.ppu.framePos + 3 * new.length) % 89342) ∧
    (s.params.bus = .flat → t.apuTicks = s.apuTicks ∧ t.ppu = s.ppu)

/-- R10, R46, R56, R57, R59: no step changes the parameters, the inputs, the PRG ROM, the CHR ROM or the
mirroring; with `FLAT` none touches the cartridge, the PPU or an external collaborator. -/
def Obligations.StepLeavesFixedParts : Prop :=
  ∀ s t : State, step s = .next t →
    t.params = s.params ∧ t.inputs = s.inputs ∧ t.cart.prgRom = s.cart.prgRom ∧
    t.cart.prgBanks = s.cart.prgBanks ∧ t.cart.chrBanks = s.cart.chrBanks ∧ t.cart.chrRom = s.cart.chrRom ∧
    t.cart.mirroring = s.cart.mirroring ∧
    (s.params.bus = .flat → t.cart = s.cart ∧ t.ppu = s.ppu ∧ t.extCalls = s.extCalls ∧ t.apuTicks = s.apuTicks)

/-! ## The scheduler -/

/-- R192: `queue` places the event after every queued event with a tick not above its own and before the
sentinel, and keeps the queue well formed. First in, first out among equal ticks is the spec's decision D12. -/
def Obligations.QueueInsertsInOrder : Prop :=
  ∀ (s : State) (offset : Tick), queueWf s.queue = true →
    queueWf (s.queueEvent .reset offset).queue = true ∧
    (s.queueEvent .reset offset).queue =
      s.queue.takeWhile (fun e => e.kind != .sentinel && decide (e.tick ≤ s.cycles + offset)) ++
        ⟨.reset, s.cycles + offset⟩ ::
        s.queue.dropWhile (fun e => e.kind != .sentinel && decide (e.tick ≤ s.cycles + offset)) ∧
    s.queueEvent .reset offset = { s with queue := (s.queueEvent .reset offset).queue }

/-- R193, R194: draining a well-formed queue takes off exactly the events that have arrived; a Reset among
them sets `need_reset`; nothing else changes. "Arrived" as `tick <= cycles` is the spec's decision D12. -/
def Obligations.DrainTakesArrivedEvents : Prop :=
  ∀ s : State, queueWf s.queue = true →
    s.handleEvents = some { s with
      queue := s.queue.filter (fun e => e.kind == .sentinel || decide (s.cycles < e.tick))
      lat := { s.lat with needReset :=
        s.lat.needReset || s.queue.any (fun e => e.kind == .reset && decide (e.tick ≤ s.cycles)) } }

/-! ## The bus -/

/-- R44 to R47, R183, R195: one CPU cycle, a read, a write or the idle cycle of DMA: the bus exchange comes first, then the
count, the clock of the devices, the IRQ sample and the poll, which reads I as it then stands. With `NES` the clock is
three PPU dots, one APU tick, then the NMI pin as the PPU's output stands; with `FLAT` the pin is `NMI_IN` at the new
count and no device moves. The order is the spec's decision D17, the latches are its decision D10; the pins logged for
an idle cycle are the model's choice (notes/assumptions/13.md). -/
def Obligations.CycleSubSteps : Prop :=
  ∀ (s : State) (a : Word) (v : Byte),
    s.memRead a = ((s.busRead a).1, cycleEnd s (s.busRead a).2 .read a (s.busRead a).1 none) ∧
    s.writeCycle a v = ((s.busWrite a v).1, cycleEnd s (s.busWrite a v).2 .write a v (s.busWrite a v).1) ∧
    s.idleCycle = cycleEnd s s .idle 0#16 0#8 none ∧
    (s.params.bus = .nes → s.busClock = ((((s.ppu.tick s.cart).tick s.cart).tick s.cart).nmiOut,
      { s with ppu := ((s.ppu.tick s.cart).tick s.cart).tick s.cart, apuTicks := s.apuTicks + 1 })) ∧
    (s.params.bus = .flat → s.busClock = (levelAt s.inputs.nmi s.cycles.toNat, s))

/-- R52, R53: the read and the write decode of the NES bus, range by range. The RAM mask, the register numbers and the value of
unused addresses are the spec's decision D18. -/
def Obligations.NesAddressDecode : Prop :=
  ∀ (s : State) (a : Word), s.params.bus = .nes →
    (a.toNat < 0x2000 → s.busRead a = (s.ram.read (a.toNat % 0x800), s)) ∧
    (0x2000 ≤ a.toNat → a.toNat < 0x4000 → s.busRead a =
      ((s.ppu.readRegister s.cart (a.toNat % 8)).1, { s with ppu := (s.ppu.readRegister s.cart (a.toNat % 8)).2 })) ∧
    (a = 0x4015#16 → s.busRead a = (s.apuStatusAnswer, s.callExt .apuReadStatus)) ∧
    (a = 0x4016#16 → s.busRead a = (s.padAnswer 0, s.callExt (.padRead 0))) ∧
    (a = 0x4017#16 → s.busRead a = (s.padAnswer 1, s.callExt (.padRead 1))) ∧
    ((0x4000 ≤ a.toNat ∧ a.toNat ≤ 0x4014) ∨ (0x4018 ≤ a.toNat ∧ a.toNat ≤ 0x401F) → s.busRead a = (0x00#8, s)) ∧
    (0x4020 ≤ a.toNat → s.busRead a = (s.cart.readPrg a.toNat, s)) ∧
    ∀ v : Byte,
    (a.toNat < 0x2000 → s.busWrite a v = (none, { s with ram := s.ram.write (a.toNat % 0x800) v })) ∧
    (0x2000 ≤ a.toNat → a.toNat < 0x4000 → s.busWrite a v =
      (none, { s with ppu := s.ppu.writeRegister s.cart (a.toNat % 8) v })) ∧
    (a = 0x4014#16 → s.busWrite a v = (some v, s)) ∧
    (a = 0x4016#16 → s.busWrite a v = (none, s.callExt (.padWrite v))) ∧
    ((0x4000 ≤ a.toNat ∧ a.toNat ≤ 0x4013) ∨ a = 0x4015#16 ∨ a = 0x4017#16 →
      s.busWrite a v = (none, s.callExt (.apuWrite a v))) ∧
    (0x4018 ≤ a.toNat → a.toNat ≤ 0x401F → s.busWrite a v = (none, s)) ∧
    (0x4020 ≤ a.toNat → s.busWrite a v = (none, { s with cart := s.cart.writePrg a.toNat v }))

/-- R61: `peek` refuses 0x2000 to 0x401F of the NES bus and nothing else, and where it answers, a bus read
gives the same byte and changes nothing. The refused window is the spec's decision D19. -/
def Obligations.PeekAgreesWithRead : Prop :=
  ∀ (s : State) (a : Word),
    (s.peek a = none ↔ s.params.bus = .nes ∧ 0x2000 ≤ a.toNat ∧ a.toNat < 0x4020) ∧
    (∀ b, s.peek a = some b → s.busRead a = (b, s))

/-- R56, R59, R62: in a well-formed state a byte written to memory reads back, and no other byte of memory
changes, OAM DMA included. -/
def Obligations.MemoryReadAfterWrite : Prop :=
  ∀ (s : State) (a : Word) (v : Byte), s.wf = true →
    (storable s.params.bus a → (s.memWrite a v).peek a = some v) ∧
    (∀ b, ¬ sameCell s.params.bus a b → (s.memWrite a v).peek b = s.peek b)

/-- R44, R53, R195, R228: a write starts OAM DMA exactly when it hits 0x4014 of the NES bus, after its own cycle, with
the byte written as the source page. DMA copies that page of memory into OAM from the OAM address up, with
wrap, in 512 cycles or 513 when `cycles` is odd; registers and CPU memory stay. The parity test is the spec's
decision D26, the check after the poll its decision D17. -/
def Obligations.DmaCopiesPage : Prop :=
  (∀ (s : State) (a : Word) (v : Byte),
    (s.params.bus = .nes ∧ a = 0x4014#16 → s.memWrite a v = (s.writeCycle a v).2.runDma v) ∧
    (¬(s.params.bus = .nes ∧ a = 0x4014#16) → s.memWrite a v = (s.writeCycle a v).2 ∧
      (s.memWrite a v).logged = s.logged + 1)) ∧
  ∀ (s : State) (page : Byte), s.params.bus = .nes → s.wf = true →
    (∀ n : Byte, ∃ b, s.peek (joinBytes page n) = some b) →
    (∀ n : Byte, some ((s.runDma page).ppu.oam.read (s.ppu.oamAddr + n).toNat) = s.peek (joinBytes page n)) ∧
    (s.runDma page).ppu.oamAddr = s.ppu.oamAddr ∧
    (s.runDma page).cpu = s.cpu ∧
    (∀ a, (s.runDma page).peek a = s.peek a) ∧
    (s.runDma page).logged = s.logged + (if s.cycles.getLsbD 0 then 513 else 512)

/-! ## Interrupts -/

/-- R186, R187: the hardware entry from a well-formed state: two dummy reads at PC, PC and P pushed with B
clear, I set, PC from the vector, seven cycles; a `need_nmi` of cycle 5 is cleared, so that the entry leaves pending only
an NMI whose edge came in the two cycles after. That the vector is chosen after cycle 5 is the spec's decision D24, the
latches are its decision D10. -/
def Obligations.InterruptEntry : Prop :=
  ∀ s : State, s.wf = true →
    entered ((s.dummyRead s.cpu.pc).dummyRead s.cpu.pc) false s.interruptSequence ∧
    s.interruptSequence.logged = s.logged + 7 ∧
    (s.lat.needNmi = true → vectorOf (pushed ((s.dummyRead s.cpu.pc).dummyRead s.cpu.pc) false) = 0xFFFA#16) ∧
    (s.lat.needNmi = true → s.selectVector 0xFFFE#16 =
      (0xFFFA#16, { s with lat := { s.lat with needNmi := false } })) ∧
    (s.lat.needNmi = false → s.selectVector 0xFFFE#16 = (0xFFFE#16, s))

/-- R143, R187: BRK from a well-formed state: the padding byte is read and skipped, PC and P are pushed with B set,
I is set, PC is loaded from the vector, which a pending NMI selects and with it `need_nmi` is cleared, six cycles after
the opcode fetch. That the vector is chosen after cycle 5 is the spec's decision D24, the latches are its decision D10. -/
def Obligations.BrkEntry : Prop :=
  ∀ s : State, s.wf = true → ∃ t, exec .brk s = .next t ∧ entered s.fetch.2 true t ∧
    s.fetch.2.cpu = { s.cpu with pc := s.cpu.pc + 1#16 } ∧ t.logged = s.logged + 6

/-- R142, R23: RTI pulls P, then PC; bits 4 and 5 of the byte are discarded, memory is unchanged. -/
def Obligations.RtiResult : Prop :=
  ∀ s : State, ∃ t, exec .rti s = .next t ∧
    t.cpu = { s.cpu with
      s := s.cpu.s + 3#8
      pc := joinBytes (stackByte s 3#8) (stackByte s 2#8)
      p :=
        { c := (stackByte s 1#8).getLsbD 0
          z := (stackByte s 1#8).getLsbD 1
          i := (stackByte s 1#8).getLsbD 2
          d := (stackByte s 1#8).getLsbD 3
          v := (stackByte s 1#8).getLsbD 6
          n := (stackByte s 1#8).getLsbD 7 } } ∧
    sameMemory s t

/-- R186, R189, R142: an interrupt whose handler begins with RTI resumes the interrupted program with every
register and flag as it was. -/
def Obligations.InterruptThenRti : Prop :=
  ∀ s : State, s.wf = true → ∃ t, exec .rti s.interruptSequence.fetch.2 = .next t ∧ t.cpu = s.cpu

/-- R30, R183: an NMI that is pending stays pending through every instruction but BRK, and through a reset. -/
def Obligations.NmiStaysPending : Prop :=
  (∀ (i : Instr) (s t : State), i ≠ .brk → s.lat.needNmi = true → exec i s = .next t → t.lat.needNmi = true) ∧
  (∀ s : State, s.lat.needNmi = true → s.resetSequence.lat.needNmi = true)

/-- R224, R150, R151, R147: the polls of CLI, SEI and PLP still see the old I: after each, `irq_active` is the IRQ level of
its last cycle with the old I being 0, and `prev_irq` the `irq_active` of the cycle before. That a flag is written after
the poll is the spec's decision D8, the latches and their order are its decision D10. -/
def Obligations.InterruptEnableDelay : Prop :=
  ∀ s : State, ∃ a b c : State, exec .cli s = .next a ∧ exec .sei s = .next b ∧ exec .plp s = .next c ∧
    a.lat.irqActive = (levelAt s.inputs.irq (s.cycles + 1#64).toNat && !s.cpu.p.i) ∧
    b.lat.irqActive = (levelAt s.inputs.irq (s.cycles + 1#64).toNat && !s.cpu.p.i) ∧
    c.lat.irqActive = (levelAt s.inputs.irq (s.cycles + 3#64).toNat && !s.cpu.p.i) ∧
    a.lat.prevIrq = s.lat.irqActive ∧ b.lat.prevIrq = s.lat.irqActive ∧
    c.lat.prevIrq = (levelAt s.inputs.irq (s.cycles + 2#64).toNat && !s.cpu.p.i) ∧
    a.cpu.p.i = false ∧ b.cpu.p.i = true ∧ c.cpu.p.i = (stackByte s 1#8).getLsbD 2

/-! ## Loads, stores and transfers -/

/-- R92, R93, R94, R164, R165: the loads, in every mode: the operand goes to the destination, N and Z come from
it, nothing else changes. -/
def Obligations.LoadResults : Prop :=
  ∀ (i : Instr) (s : State),
    (i.mnemonic = .LDA → readsThen i s (fun m c => { c with a := m, p := nz c.p m })) ∧
    (i.mnemonic = .LDX → readsThen i s (fun m c => { c with x := m, p := nz c.p m })) ∧
    (i.mnemonic = .LDY → readsThen i s (fun m c => { c with y := m, p := nz c.p m })) ∧
    (i.mnemonic = .LAX → readsThen i s (fun m c => { c with a := m, x := m, p := nz c.p m })) ∧
    (i.mnemonic = .LAS → readsThen i s (fun m c =>
      { c with a := m &&& c.s, x := m &&& c.s, s := m &&& c.s, p := nz c.p (m &&& c.s) }))

/-- R98 to R103, R126 to R129, R148 to R154: the transfers, the register increments and the flag instructions: a dummy
read at PC, then the destination and, except for TXS, N and Z, or the one flag; nothing else changes. -/
def Obligations.ImpliedResults : Prop :=
  ∀ s : State,
    registersBecome .tax s (fun c => { c with x := c.a, p := nz c.p c.a }) ∧
    registersBecome .tay s (fun c => { c with y := c.a, p := nz c.p c.a }) ∧
    registersBecome .txa s (fun c => { c with a := c.x, p := nz c.p c.x }) ∧
    registersBecome .tya s (fun c => { c with a := c.y, p := nz c.p c.y }) ∧
    registersBecome .tsx s (fun c => { c with x := c.s, p := nz c.p c.s }) ∧
    registersBecome .txs s (fun c => { c with s := c.x }) ∧
    registersBecome .inx s (fun c => { c with x := c.x + 1#8, p := nz c.p (c.x + 1#8) }) ∧
    registersBecome .iny s (fun c => { c with y := c.y + 1#8, p := nz c.p (c.y + 1#8) }) ∧
    registersBecome .dex s (fun c => { c with x := c.x - 1#8, p := nz c.p (c.x - 1#8) }) ∧
    registersBecome .dey s (fun c => { c with y := c.y - 1#8, p := nz c.p (c.y - 1#8) }) ∧
    registersBecome .clc s (fun c => { c with p := { c.p with c := false } }) ∧
    registersBecome .sec s (fun c => { c with p := { c.p with c := true } }) ∧
    registersBecome .cli s (fun c => { c with p := { c.p with i := false } }) ∧
    registersBecome .sei s (fun c => { c with p := { c.p with i := true } }) ∧
    registersBecome .cld s (fun c => { c with p := { c.p with d := false } }) ∧
    registersBecome .sed s (fun c => { c with p := { c.p with d := true } }) ∧
    registersBecome .clv s (fun c => { c with p := { c.p with v := false } })

/-- R95, R96, R97, R163, R173 to R177: the stores, in every mode: the last cycle writes the register at the effective
address; the high-byte-AND stores write `reg & (H + 1)`, which on a page cross also becomes the high byte of the
address; TAS sets S first; no other register but PC and no flag changes. That H is the base's high byte is the
spec's decision D23. -/
def Obligations.StoreResults : Prop :=
  ∀ (i : Instr) (s : State),
    (i.mnemonic = .STA → storesAt i s (target i s).1.ea s.cpu.a id) ∧
    (i.mnemonic = .STX → storesAt i s (target i s).1.ea s.cpu.x id) ∧
    (i.mnemonic = .STY → storesAt i s (target i s).1.ea s.cpu.y id) ∧
    (i.mnemonic = .SAX → storesAt i s (target i s).1.ea (s.cpu.a &&& s.cpu.x) id) ∧
    (∀ reg : Byte, highAndRegister i.mnemonic s.cpu = some reg →
      let r := (target i s).1
      let v := reg &&& (r.baseHi + 1#8)
      storesAt i s (if r.crossed then joinBytes v (loByte r.ea) else r.ea) v
        (fun c => if i.mnemonic = .TAS then { c with s := c.a &&& c.x } else c))

/-! ## Arithmetic and logic -/

/-- R113 to R116: AND, ORA, EOR and BIT, in every mode. -/
def Obligations.LogicResults : Prop :=
  ∀ (i : Instr) (s : State),
    (i.mnemonic = .AND → readsThen i s (fun m c => { c with a := c.a &&& m, p := nz c.p (c.a &&& m) })) ∧
    (i.mnemonic = .ORA → readsThen i s (fun m c => { c with a := c.a ||| m, p := nz c.p (c.a ||| m) })) ∧
    (i.mnemonic = .EOR → readsThen i s (fun m c => { c with a := c.a ^^^ m, p := nz c.p (c.a ^^^ m) })) ∧
    (i.mnemonic = .BIT → readsThen i s (fun m c => { c with p :=
      { c.p with z := decide (c.a &&& m = 0#8), n := m.getLsbD 7, v := m.getLsbD 6 } }))

/-- R105: `Add` in ADC and in RRA, binary and decimal: the exact sum gives A and C, the signed sum gives V. -/
def Obligations.AddResults : Prop :=
  ∀ (i : Instr) (s : State),
    (i.mnemonic = .ADC → readsThen i s (added s)) ∧
    (i.mnemonic = .RRA → modifies i s (fun v c =>
      ((shifted .ROR v c.p.c).1,
        added s (shifted .ROR v c.p.c).1 { c with p := { c.p with c := (shifted .ROR v c.p.c).2 } }))) ∧
    (∀ (m : Byte) (c : Cpu), (addBinary m c).p.v =
      (c.a.getLsbD 7 == m.getLsbD 7 && (addBinary m c).a.getLsbD 7 != c.a.getLsbD 7))

/-- R106: `Sub` in SBC, USBC and ISB, binary and decimal: C says that nothing was borrowed. -/
def Obligations.SubtractResults : Prop :=
  ∀ (i : Instr) (s : State),
    (i.mnemonic = .SBC ∨ i.mnemonic = .USBC → readsThen i s (subtracted s)) ∧
    (i.mnemonic = .ISB → modifies i s (fun v c => (v + 1#8, subtracted s (v + 1#8) c))) ∧
    (∀ (m : Byte) (c : Cpu), (subBinary m c).p.c = decide ((m.toNat : Int) ≤ c.a.toNat + c.p.c.toNat - 1))

/-- R107, R108: on two-digit decimal numbers, ADC and SBC in decimal mode add and subtract in decimal, C being the
carry and the absence of a borrow. A consequence of the two rules' digit algorithms, which the spec does not
state in these words. -/
def Obligations.DecimalArithmetic : Prop :=
  ∀ (i : Instr) (s : State), inDecimal s → isBcd s.cpu.a → isBcd (operand i s).1 →
    (i.mnemonic = .ADC → ∃ t, exec i s = .next t ∧ isBcd t.cpu.a ∧
      bcdValue t.cpu.a = (bcdValue s.cpu.a + bcdValue (operand i s).1 + s.cpu.p.c.toNat) % 100 ∧
      t.cpu.p.c = decide (100 ≤ bcdValue s.cpu.a + bcdValue (operand i s).1 + s.cpu.p.c.toNat)) ∧
    (i.mnemonic = .SBC → ∃ t, exec i s = .next t ∧ isBcd t.cpu.a ∧
      (bcdValue t.cpu.a : Int) =
        ((bcdValue s.cpu.a : Int) - bcdValue (operand i s).1 - (1 - s.cpu.p.c.toNat)) % 100 ∧
      t.cpu.p.c = decide ((bcdValue (operand i s).1 : Int) + (1 - s.cpu.p.c.toNat) ≤ bcdValue s.cpu.a))

/-- R109: `Compare` in CMP, CPX, CPY and DCP: only C, Z and N change, in every decimal mode. -/
def Obligations.CompareResults : Prop :=
  ∀ (i : Instr) (s : State),
    (i.mnemonic = .CMP → readsThen i s (fun m c => { c with p := compared c.a m c.p })) ∧
    (i.mnemonic = .CPX → readsThen i s (fun m c => { c with p := compared c.x m c.p })) ∧
    (i.mnemonic = .CPY → readsThen i s (fun m c => { c with p := compared c.y m c.p })) ∧
    (i.mnemonic = .DCP → modifies i s (fun v c => (v - 1#8, { c with p := compared c.a (v - 1#8) c.p })))

/-- R110: the shift and rotate functions: C takes the bit shifted out, and the rotates turn the nine bits of C and
the byte. -/
def Obligations.ShiftFunctions : Prop :=
  ∀ (v : Byte) (p : Flags),
    (aluAsl v p = (BitVec.ofNat 8 (v.toNat * 2), { p with c := v.getLsbD 7 })) ∧
    (aluLsr v p = (BitVec.ofNat 8 (v.toNat / 2), { p with c := v.getLsbD 0 })) ∧
    (BitVec.ofBool (aluRol v p).2.c ++ (aluRol v p).1 : BitVec 9) = (BitVec.ofBool p.c ++ v : BitVec 9).rotateLeft 1 ∧
    (BitVec.ofBool (aluRor v p).2.c ++ (aluRor v p).1 : BitVec 9) = (BitVec.ofBool p.c ++ v : BitVec 9).rotateRight 1 ∧
    (aluRol v p).2 = { p with c := v.getLsbD 7 } ∧ (aluRor v p).2 = { p with c := v.getLsbD 0 }

/-- R120 to R125: the shifts and rotates of A and of memory: N and Z from the result, C the bit shifted out; INC and DEC: N and Z
from the new byte, C and V unchanged. -/
def Obligations.ShiftAndStepResults : Prop :=
  ∀ (i : Instr) (s : State),
    (i.mnemonic = .INC → modifies i s (fun v c => (v + 1#8, { c with p := nz c.p (v + 1#8) }))) ∧
    (i.mnemonic = .DEC → modifies i s (fun v c => (v - 1#8, { c with p := nz c.p (v - 1#8) }))) ∧
    (i.mnemonic = .ASL ∨ i.mnemonic = .LSR ∨ i.mnemonic = .ROL ∨ i.mnemonic = .ROR →
    (i.mode = .acc → registersBecome i s (fun c => { c with
      a := (shifted i.mnemonic c.a c.p.c).1
      p := { nz c.p (shifted i.mnemonic c.a c.p.c).1 with c := (shifted i.mnemonic c.a c.p.c).2 } })) ∧
    (i.mode ≠ .acc → modifies i s (fun v c => ((shifted i.mnemonic v c.p.c).1, { c with
      p := { nz c.p (shifted i.mnemonic v c.p.c).1 with c := (shifted i.mnemonic v c.p.c).2 } }))))

/-- R157 to R159: SLO, RLA and SRE, in every mode: N and Z from the new A, C from the shift. -/
def Obligations.CombinedShiftResults : Prop :=
  ∀ (i : Instr) (s : State),
    (i.mnemonic = .SLO → modifies i s (fun v c =>
      let r := (shifted .ASL v c.p.c).1
      (r, { c with a := c.a ||| r, p := { nz c.p (c.a ||| r) with c := v.getLsbD 7 } }))) ∧
    (i.mnemonic = .RLA → modifies i s (fun v c =>
      let r := (shifted .ROL v c.p.c).1
      (r, { c with a := c.a &&& r, p := { nz c.p (c.a &&& r) with c := v.getLsbD 7 } }))) ∧
    (i.mnemonic = .SRE → modifies i s (fun v c =>
      let r := (shifted .LSR v c.p.c).1
      (r, { c with a := c.a ^^^ r, p := { nz c.p (c.a ^^^ r) with c := v.getLsbD 0 } })))

/-- R166 to R171: ANC, ALR, ARR in both modes, ANE, LXA and SBX, for every pair of bytes. The constant 0xEE is the spec's
decision D3. -/
def Obligations.UndocumentedImmediateResults : Prop :=
  ∀ (i : Instr) (s : State),
    (i.mnemonic = .ANC → readsThen i s (fun m c => { c with
      a := c.a &&& m, p := { nz c.p (c.a &&& m) with c := (c.a &&& m).getLsbD 7 } })) ∧
    (i.mnemonic = .ALR → readsThen i s (fun m c => { c with
      a := (c.a &&& m) >>> 1, p := { nz c.p ((c.a &&& m) >>> 1) with c := (c.a &&& m).getLsbD 0 } })) ∧
    (i.mnemonic = .ARR → ¬ inDecimal s → readsThen i s (fun m c =>
      let r := (shifted .ROR (c.a &&& m) c.p.c).1
      { c with a := r, p := { nz c.p r with c := r.getLsbD 6, v := r.getLsbD 6 != r.getLsbD 5 } })) ∧
    (i.mnemonic = .ANE → readsThen i s (fun m c =>
      let r := (c.a ||| 0xEE#8) &&& c.x &&& m
      { c with a := r, p := nz c.p r })) ∧
    (i.mnemonic = .LXA → readsThen i s (fun m c =>
      let r := (c.a ||| 0xEE#8) &&& m
      { c with a := r, x := r, p := nz c.p r })) ∧
    (i.mnemonic = .SBX → readsThen i s (fun m c =>
      let d := c.a &&& c.x
      { c with x := d - m, p := { nz c.p (d - m) with c := decide (m.toNat ≤ d.toNat) } })) ∧
    (i.mnemonic = .ARR → inDecimal s → readsThen i s (fun m c =>
      let t := c.a &&& m
      let r := (shifted .ROR t c.p.c).1
      let low := if 5 < t.toNat % 16 + t.toNat % 2 then r.toNat / 16 * 16 + (r.toNat + 6) % 16 else r.toNat
      let carry := decide (0x50 < t.toNat / 16 * 16 + t.toNat / 16 % 2 * 16)
      { c with
        a := BitVec.ofNat 8 (if carry then low + 0x60 else low)
        p := { c.p with n := c.p.c, z := decide (r = 0#8), v := t.getLsbD 6 != r.getLsbD 6, c := carry } }))

/-! ## Control -/

/-- R70, R130: every branch, with its condition of R131 to R138: not taken it only fetches its offset; taken it reads
at the next instruction, and across a page once more in the old page; no flag and no other register changes.
The target lies from 126 bytes before the branch opcode to 129 after it. That the polls of a branch are no special case is
the spec's decision D22. -/
def Obligations.BranchResults : Prop :=
  ∀ (i : Instr) (s : State), i.accessClass = .branch →
    let f := s.fetch.2
    let next := s.cpu.pc + 1#16
    let dest := next + sext16 s.fetch.1
    (taken i.mnemonic s.cpu.p = false → exec i s = .next { f with cpu := { s.cpu with pc := next } }) ∧
    (taken i.mnemonic s.cpu.p = true → hiByte dest = hiByte next →
      exec i s = .next { f.dummyRead next with cpu := { s.cpu with pc := dest } }) ∧
    (taken i.mnemonic s.cpu.p = true → hiByte dest ≠ hiByte next →
      exec i s = .next { (f.dummyRead next).dummyRead (joinBytes (hiByte next) (loByte dest)) with
        cpu := { s.cpu with pc := dest } }) ∧
    dest = s.cpu.pc - 1#16 + BitVec.ofInt 16 (s.fetch.1.toInt + 2) ∧
    -126 ≤ s.fetch.1.toInt + 2 ∧ s.fetch.1.toInt + 2 ≤ 129

/-- R139: JMP: two operand bytes, low first; the indirect form reads the high byte of the target in the pointer's own
page. Nothing but PC changes, and no memory. -/
def Obligations.JumpResults : Prop :=
  ∀ s : State,
    let lo := s.fetch.1
    let u := s.fetch.2.fetch.2
    let hi := s.fetch.2.fetch.1
    exec .jmpAbs s = .next { u with cpu := { s.cpu with pc := joinBytes hi lo } } ∧
    (let a := u.memRead (joinBytes hi lo)
     let b := a.2.memRead (joinBytes hi (lo + 1#8))
     exec .jmpInd s = .next { b.2 with cpu := { s.cpu with pc := joinBytes b.1 a.1 } })

/-- R140, R141: JSR pushes the address of its last byte and jumps to the target, whose high byte it reads after the
pushes; RTS pulls PC and goes one past it. -/
def Obligations.SubroutineResults : Prop :=
  ∀ s : State, s.wf = true →
    (∃ t, exec .jsr s = .next t ∧
      (∀ lo hi, s.peek s.cpu.pc = some lo → s.peek (s.cpu.pc + 1#16) = some hi →
        ¬ sameCell s.params.bus (slotBelow s 0#8) (s.cpu.pc + 1#16) →
        ¬ sameCell s.params.bus (slotBelow s 1#8) (s.cpu.pc + 1#16) → t.cpu.pc = joinBytes hi lo) ∧
      t.cpu = { s.cpu with s := s.cpu.s - 2#8, pc := t.cpu.pc } ∧
      t.peek (slotBelow s 0#8) = some (hiByte (s.cpu.pc + 1#16)) ∧
      t.peek (slotBelow s 1#8) = some (loByte (s.cpu.pc + 1#16)) ∧
      (∀ a, ¬ sameCell s.params.bus (slotBelow s 0#8) a → ¬ sameCell s.params.bus (slotBelow s 1#8) a →
        t.peek a = s.peek a) ∧
      t.logged = s.logged + 5) ∧
    (∃ t, exec .rts s = .next t ∧
      t.cpu = { s.cpu with s := s.cpu.s + 2#8, pc := joinBytes (stackByte s 2#8) (stackByte s 1#8) + 1#16 } ∧
      sameMemory s t ∧ t.logged = s.logged + 5)

/-- R140, R141: a subroutine that begins with RTS returns to the instruction after the JSR with every register as it
was. -/
def Obligations.JsrThenRts : Prop :=
  ∀ s t : State, s.wf = true → exec .jsr s = .next t →
    ∃ u, exec .rts t.fetch.2 = .next u ∧ u.cpu = { s.cpu with pc := s.cpu.pc + 2#16 }

/-- R144 to R147, R22, R23: the stack instructions: PHA and PHP store one byte in the slot S names and lower S, PHP with
B and U set; PLA and PLP raise S and read; nothing else changes. -/
def Obligations.StackResults : Prop :=
  ∀ s : State, s.wf = true →
    (∃ t, exec .pha s = .next t ∧ t.cpu = { s.cpu with s := s.cpu.s - 1#8 } ∧
      t.peek (slotBelow s 0#8) = some s.cpu.a ∧
      (∀ a, ¬ sameCell s.params.bus (slotBelow s 0#8) a → t.peek a = s.peek a)) ∧
    (∃ t, exec .php s = .next t ∧ t.cpu = { s.cpu with s := s.cpu.s - 1#8 } ∧
      t.peek (slotBelow s 0#8) = some (s.cpu.p.toByte true) ∧
      (∀ a, ¬ sameCell s.params.bus (slotBelow s 0#8) a → t.peek a = s.peek a)) ∧
    (∃ t, exec .pla s = .next t ∧
      t.cpu = { s.cpu with s := s.cpu.s + 1#8, a := stackByte s 1#8, p := nz s.cpu.p (stackByte s 1#8) } ∧
      sameMemory s t) ∧
    (∃ t, exec .plp s = .next t ∧
      t.cpu = { s.cpu with s := s.cpu.s + 1#8, p := Flags.ofByte (stackByte s 1#8) } ∧ sameMemory s t)

/-- R22, R23: the byte form of P: bit 5 is 1, bit 4 is B, the six flags stand at their bits; loading P from it restores
the six flags, whatever bits 4 and 5 hold. The byte form is the spec's decision D9. -/
def Obligations.StatusByteForm : Prop :=
  ∀ (p : Flags) (b : Bool) (m : Byte),
    (p.toByte b).toNat = p.n.toNat * 128 + p.v.toNat * 64 + 32 + b.toNat * 16 + p.d.toNat * 8 + p.i.toNat * 4 +
      p.z.toNat * 2 + p.c.toNat ∧
    Flags.ofByte (p.toByte b) = p ∧
    (Flags.ofByte m).toByte b = (m &&& 0xCF#8) ||| (if b then 0x30#8 else 0x20#8)

/-- R155, R178, R179: NOP, JAM and the undocumented NOP forms make their bus cycles and change no register but PC. That JAM
does not halt is the spec's resolution C2, its one dummy read and two cycles are its decision D21. -/
def Obligations.NoOperationResults : Prop :=
  ∀ (i : Instr) (s : State), i.mnemonic = .NOP ∨ i.mnemonic = .JAM →
    (i.mode = .imp → registersBecome i s id) ∧ (i.mode ≠ .imp → readsThen i s (fun _ c => c))

/-! ## Operands, bus cycles and frames, over all instructions -/

/-- R81 to R86: where the operand bytes are memory, the resolver gives the effective address of the mode in every access
class, the high byte of the base and whether the index crossed a page, with exactly the bus cycles of its mode: an indexed
mode reads the un-fixed address in the read class only on a page cross, in the other classes always. It changes no memory
and no register but PC, which passes the operand bytes. That a mode without such an index answers `crossed` false is the
model's choice (notes/assumptions/18.md). -/
def Obligations.OperandAddress : Prop :=
  ∀ (i : Instr) (m : MemMode) (cls : MemClass) (s : State) (b1 b2 : Byte), memModeOf i.mode = some m →
    operandBytes i s b1 b2 →
    (s.resolve m cls).1.ea = address s i.mode b1 b2 ∧
    (s.resolve m cls).1.crossed = crosses (indexing s i.mode b1 b2) ∧
    (∀ hi lo idx, indexing s i.mode b1 b2 = some (hi, lo, idx) → (s.resolve m cls).1.baseHi = hi) ∧
    logOf (s.resolve m cls).2 = (fetches i s ++ resolverReads (decide (cls = .read)) i s b1 b2).reverse ++ logOf s ∧
    (s.resolve m cls).2.cpu = past i s ∧ sameMemory s (s.resolve m cls).2

/-- R82 to R86, with R90: where the operand bytes are memory and no DMA is started, an instruction makes exactly the bus
cycles its mode and class list, in order. The read class of an indexed mode reads at the un-fixed address only on a page
cross, the other classes always. The cycles of JAM are the spec's decision D21. -/
def Obligations.BusCycleSequence : Prop :=
  ∀ (i : Instr) (s : State) (b1 b2 : Byte), i ≠ .brk → operandBytes i s b1 b2 → startsNoDma i s b1 b2 →
    ∃ t, exec i s = .next t ∧ logOf t = (accesses i s b1 b2).reverse ++ logOf s

/-- R229: with the opcode fetch, an instruction takes the cycles of the table, one more on a page cross of the read class,
one or two more for a branch taken; the decimal mode changes no count. -/
def Obligations.CycleCounts : Prop :=
  ∀ (i : Instr) (s t : State) (b1 b2 : Byte), operandBytes i s b1 b2 → startsNoDma i s b1 b2 → exec i s = .next t →
    t.logged + 1 = s.logged + i.baseCycles + extraCycles i s b1 b2

/-- R87, R79, R130, R139, R141, R142, R146, R147: an instruction that is neither a store, nor a read-modify-write, nor a push
changes no byte of memory. -/
def Obligations.NonStoringLeaveMemory : Prop :=
  ∀ (i : Instr) (s t : State), i.accessClass ≠ .write → i.accessClass ≠ .rmw →
    i ≠ .jsr → i ≠ .brk → i ≠ .pha → i ≠ .php → exec i s = .next t → sameMemory s t

/-- R88, R89, R173: a store or a read-modify-write changes no byte of CPU memory but the one at the address it computes; of the
PPU memories nametable and palette change only through the DATA port, OAM only through its port and DMA. -/
def Obligations.StoresTouchOnlyTarget : Prop :=
  ∀ (i : Instr) (s t : State) (a : Word), s.wf = true →
    (i.accessClass = .rmw ∧ a = (target i s).1.ea) ∨
      (i.accessClass = .write ∧ a = match highAndRegister i.mnemonic s.cpu with
        | some reg => highAndAddr reg (target i s).1
        | none => (target i s).1.ea) →
    exec i s = .next t →
    (∀ b, ¬ sameCell s.params.bus a b → t.peek b = s.peek b) ∧
    (¬(s.params.bus = .nes ∧ 0x2000 ≤ a.toNat ∧ a.toNat < 0x4000 ∧ a.toNat % 8 = 7) →
      t.ppu.nt = s.ppu.nt ∧ t.ppu.pal = s.ppu.pal) ∧
    (¬(s.params.bus = .nes ∧ ((0x2000 ≤ a.toNat ∧ a.toNat < 0x4000 ∧ a.toNat % 8 = 4) ∨ a = 0x4014#16)) →
      t.ppu.oam = s.ppu.oam)

/-- R17 to R19, R24 to R29: no instruction writes a register or a flag that the rule of that register does not list it for. -/
def Obligations.RegisterWriters : Prop :=
  ∀ (i : Instr) (s : State), ∃ t, exec i s = .next t ∧
    (writesA i = false → t.cpu.a = s.cpu.a) ∧ (writesX i = false → t.cpu.x = s.cpu.x) ∧
    (writesY i = false → t.cpu.y = s.cpu.y) ∧ (writesS i = false → t.cpu.s = s.cpu.s) ∧
    (writesC i = false → t.cpu.p.c = s.cpu.p.c) ∧ (writesV i = false → t.cpu.p.v = s.cpu.p.v) ∧
    (writesI i = false → t.cpu.p.i = s.cpu.p.i) ∧ (writesD i = false → t.cpu.p.d = s.cpu.p.d) ∧
    (writesNZ i = false → t.cpu.p.n = s.cpu.p.n ∧ t.cpu.p.z = s.cpu.p.z)

/-! ## The PPU -/

/-- R203, R204, R206, R207, R209: the coarse X increment and the Y increment with its carry chain, field by field, the fields not
named keeping their values; with rendering enabled, on a visible or the pre-render scanline, dot 256 increments X and
then Y, the other tile dots increment X, and dots 280 to 304 of scanline 261 reload the vertical bits from `t`. -/
def Obligations.ScrollRules : Prop :=
  (∀ v t : VAddr,
    (coarseX v = 31#5 → incX v = packV (fineY v) (ntY v) (~~~(ntX v)) (coarseY v) 0#5) ∧
    (coarseX v ≠ 31#5 → incX v = v + 1#15) ∧
    (fineY v ≠ 7#3 → incY v = v + 0x1000#15) ∧
    (fineY v = 7#3 → fineY (incY v) = 0#3 ∧ coarseX (incY v) = coarseX v ∧ ntX (incY v) = ntX v ∧
      coarseY (incY v) = (if coarseY v = 29#5 then 0#5 else coarseY v + 1#5) ∧
      ntY (incY v) = (if coarseY v = 29#5 then ~~~(ntY v) else ntY v)) ∧
    reloadY v t = (v &&& 0x041F#15) ||| (t &&& 0x7BE0#15) ∧
    v = packV (fineY v) (ntY v) (ntX v) (coarseY v) (coarseX v)) ∧
  ∀ (p : Ppu) (c : Cart), p.rendering = true → p.fetchLine = true →
    (p.dot.val = 256 → (p.tick c).v = incY (incX p.v)) ∧
    (p.dot.val % 8 = 0 → 1 ≤ p.dot.val ∧ p.dot.val < 256 ∨ 321 ≤ p.dot.val ∧ p.dot.val ≤ 336 →
      (p.tick c).v = incX p.v) ∧
    (p.scanline.val = 261 → 280 ≤ p.dot.val → p.dot.val ≤ 304 → (p.tick c).v = reloadY p.v p.t)

/-- R196, R197, R198: PPU memory: the pattern tables ignore writes; a palette or nametable byte written reads back through
every mirror; $3F10 and $3F00 are one byte. The fold of the palette is the spec's resolution C3, that all 8 bits
of a palette byte are kept its decision D27. -/
def Obligations.PpuMemoryMirrors : Prop :=
  ∀ (p : Ppu) (k : Cart) (a b : PAddr) (d : Byte), p.wf = true →
    (a.toNat < 0x2000 → p.write k a d = p) ∧
    (0x3F00 ≤ a.toNat → 0x3F00 ≤ b.toNat → palIndex a.toNat = palIndex b.toNat → (p.write k a d).read k b = d) ∧
    (0x2000 ≤ a.toNat → a.toNat < 0x3F00 → 0x2000 ≤ b.toNat → b.toNat < 0x3F00 →
      ntIndex k.mirroring a.toNat = ntIndex k.mirroring b.toNat → (p.write k a d).read k b = d) ∧
    (p.write k 0x3F10#14 d).read k 0x3F00#14 = d ∧ (p.write k 0x3F00#14 d).read k 0x3F10#14 = d ∧
    (k.mirroring = .horizontal → ntIndex k.mirroring 0x2000 = ntIndex k.mirroring 0x2400 ∧
      ntIndex k.mirroring 0x2800 = ntIndex k.mirroring 0x2C00 ∧
      ntIndex k.mirroring 0x2000 ≠ ntIndex k.mirroring 0x2800) ∧
    (k.mirroring = .vertical → ntIndex k.mirroring 0x2000 = ntIndex k.mirroring 0x2800 ∧
      ntIndex k.mirroring 0x2400 = ntIndex k.mirroring 0x2C00 ∧
      ntIndex k.mirroring 0x2000 ≠ ntIndex k.mirroring 0x2400)

/-- R211: vblank and the NMI output. The dot 241/1 sets vblank, and the NMI output if CTRL bit 7 is set; the dot 261/1 clears
STATUS bits 7 to 5 and the output; no other dot and no access to a register changes the output, rendering or not. That
register accesses leave the output alone is the spec's decision D28. -/
def Obligations.VblankAndNmi : Prop :=
  ∀ (p : Ppu) (c : Cart),
    (p.scanline.val = 241 ∧ p.dot.val = 1 → (p.tick c).status = p.status ||| 0x80#8 ∧
      (p.tick c).nmiOut = (p.ctrl.getLsbD 7 || p.nmiOut)) ∧
    (p.scanline.val = 261 ∧ p.dot.val = 1 → (p.tick c).status = p.status &&& 0x1F#8 ∧ (p.tick c).nmiOut = false) ∧
    (¬(p.scanline.val = 241 ∧ p.dot.val = 1) → ¬(p.scanline.val = 261 ∧ p.dot.val = 1) →
      (p.tick c).status = p.status ∧ (p.tick c).nmiOut = p.nmiOut) ∧
    (∀ (r : Nat) (d : Byte), (p.readRegister c r).2.nmiOut = p.nmiOut ∧ (p.writeRegister c r d).nmiOut = p.nmiOut)

/-- R199, R201: what reading each PPU register gives and changes. The value 0 of the write-only registers is the spec's
decision D14, the refill under the palette its decision D29, that a STATUS read leaves the NMI output its decision D28, and
that DATA reads alike during rendering its decision D30. -/
def Obligations.PpuRegisterReads : Prop :=
  ∀ (p : Ppu) (c : Cart),
    p.readRegister c 2 = (p.status &&& 0xE0#8, { p with status := p.status &&& 0x7F#8, w := false }) ∧
    p.readRegister c 4 = (p.oam.read p.oamAddr.toNat, p) ∧
    (∀ r, r = 0 ∨ r = 1 ∨ r = 3 ∨ r = 5 ∨ r = 6 → p.readRegister c r = (0x00#8, p)) ∧
    ((p.v.setWidth 14 : PAddr).toNat < 0x3F00 → p.readRegister c 7 = (p.readBuffer, { p with
      readBuffer := p.read c (p.v.setWidth 14)
      v := p.v + (if p.ctrl.getLsbD 2 then 32#15 else 1#15) })) ∧
    (0x3F00 ≤ (p.v.setWidth 14 : PAddr).toNat → p.readRegister c 7 = (p.read c (p.v.setWidth 14), { p with
      readBuffer := p.read c (p.v.setWidth 14 - 0x1000#14)
      v := p.v + (if p.ctrl.getLsbD 2 then 32#15 else 1#15) }))

/-- R200, R201, R227: the whole effect of writing each port, in every state of the toggle: a SCROLL or ADDR write as a first
and as a second write, and the pairs; CTRL sets the nametable bits of `t`; OAM data stores and advances; DATA stores at
`v` and advances it. That CTRL leaves the NMI output is the spec's decision D28, that DATA writes alike during rendering
its decision D30. -/
def Obligations.PpuRegisterWrites : Prop :=
  ∀ (p : Ppu) (c : Cart) (x y : Byte),
    (p.w = false → p.writeRegister c 5 x = { p with
      t := packV (fineY p.t) (ntY p.t) (ntX p.t) (coarseY p.t) ((x >>> 3).setWidth 5), fineX := x.setWidth 3, w := true }) ∧
    (p.w = true → p.writeRegister c 5 x = { p with
      t := packV (x.setWidth 3) (ntY p.t) (ntX p.t) ((x >>> 3).setWidth 5) (coarseX p.t), w := false }) ∧
    (p.w = false → p.writeRegister c 6 x = { p with
      t := BitVec.ofNat 15 (x.toNat % 64 * 256 + p.t.toNat % 256), w := true }) ∧
    (p.w = true → p.writeRegister c 6 x = { p with
      t := BitVec.ofNat 15 (p.t.toNat / 256 * 256 + x.toNat)
      v := BitVec.ofNat 15 (p.t.toNat / 256 * 256 + x.toNat)
      w := false }) ∧
    (p.w = false → (p.writeRegister c 6 x).writeRegister c 6 y = { p with
      v := BitVec.ofNat 15 (x.toNat % 64 * 256 + y.toNat), t := BitVec.ofNat 15 (x.toNat % 64 * 256 + y.toNat) }) ∧
    (p.w = false → (p.writeRegister c 5 x).writeRegister c 5 y = { p with
      t := packV (y.setWidth 3) (ntY p.t) (ntX p.t) ((y >>> 3).setWidth 5) ((x >>> 3).setWidth 5)
      fineX := x.setWidth 3 }) ∧
    p.writeRegister c 0 x = { p with
      ctrl := x
      t := packV (fineY p.t) (x.extractLsb' 1 1) (x.extractLsb' 0 1) (coarseY p.t) (coarseX p.t) } ∧
    p.writeRegister c 1 x = { p with mask := x } ∧ p.writeRegister c 2 x = p ∧
    p.writeRegister c 3 x = { p with oamAddr := x } ∧
    p.writeRegister c 4 x = { p with oam := p.oam.write p.oamAddr.toNat x, oamAddr := p.oamAddr + 1#8 } ∧
    p.writeRegister c 7 x = { p.write c (p.v.setWidth 14) x with
      v := p.v + (if p.ctrl.getLsbD 2 then 32#15 else 1#15) }

/-- R202, R203, R208, R210, R212: a dot leaves the ports' registers and the three memories alone and moves the PPU one place
on in its frame; `v` moves with rendering enabled on the scroll dots only, at dot 257 to the horizontal bits of `t`, whose
gating on rendering is the spec's decision D31; on a visible dot with rendering no pixel of the frame buffer but its own
changes, and elsewhere none (what that pixel becomes is BackgroundPipeline's); the frame goes to the sink exactly when
scanline 261 is entered, the spec's decision D33. That no frame skips a dot is its decision D32. -/
def Obligations.DotFrame : Prop :=
  ∀ (p : Ppu) (c : Cart), p.wf = true →
    (p.tick c).oam = p.oam ∧ (p.tick c).nt = p.nt ∧ (p.tick c).pal = p.pal ∧ (p.tick c).ctrl = p.ctrl ∧
    (p.tick c).mask = p.mask ∧ (p.tick c).t = p.t ∧ (p.tick c).fineX = p.fineX ∧ (p.tick c).w = p.w ∧
    (p.tick c).oamAddr = p.oamAddr ∧ (p.tick c).readBuffer = p.readBuffer ∧
    (p.tick c).framePos = (p.framePos + 1) % 89342 ∧
    (p.rendering = false ∨ p.fetchLine = false → (p.tick c).v = p.v) ∧
    (p.rendering = true → p.fetchLine = true → p.dot.val = 257 →
      (p.tick c).v = (p.v &&& 0x7BE0#15) ||| (p.t &&& 0x041F#15)) ∧
    (p.dot.val % 8 ≠ 0 ∨ p.dot.val = 0 ∨ (258 ≤ p.dot.val ∧ p.dot.val ≤ 320) → p.dot.val ≠ 257 →
      ¬(p.scanline.val = 261 ∧ 280 ≤ p.dot.val ∧ p.dot.val ≤ 304) →
      (p.tick c).v = p.v) ∧
    (∀ n, (p.tick c).frame.read n ≠ p.frame.read n →
      p.rendering = true ∧ p.scanline.val < 240 ∧ 1 ≤ p.dot.val ∧ p.dot.val ≤ 256 ∧
      n = p.scanline.val * 256 + (p.dot.val - 1)) ∧
    (p.framePos + 1 = 261 * 341 → (p.tick c).published = p.published + 1 ∧ (p.tick c).sinkFrame = (p.tick c).frame) ∧
    (p.framePos + 1 ≠ 261 * 341 → (p.tick c).published = p.published ∧ (p.tick c).sinkFrame = p.sinkFrame)

/-- R203, R204, R205, R210: the background pipeline. With rendering enabled on a visible or the pre-render scanline, a dot
leaves in the shift registers the shifted values, their low bytes and the attribute feed reloaded at the reload dots, and
in the latches what the fetch phase of the dot read at the address of the tile at `v`; on a visible dot the frame buffer
then holds at its place the palette byte those registers select. Otherwise none of them changes. A rendered pixel is the
palette byte at the fine X offset, a pixel value of 0 the byte at 0x3F00, and no other pixel changes. The windows and the
order are the spec's resolution C1, the whole palette byte is its decision D27, no clipping its decision D13. -/
def Obligations.BackgroundPipeline : Prop :=
  ∀ (p : Ppu) (c : Cart), p.wf = true →
    (p.rendering = true → p.fetchLine = true →
      (p.tick c).bgPatLo = patternAfter p.dot.val p.bgPatLo p.ptLoLatch ∧
      (p.tick c).bgPatHi = patternAfter p.dot.val p.bgPatHi p.ptHiLatch ∧
      (p.tick c).bgAttrLo = attributeAfter p.dot.val p.bgAttrLo (p.attrFeed.getLsbD 0) ∧
      (p.tick c).bgAttrHi = attributeAfter p.dot.val p.bgAttrHi (p.attrFeed.getLsbD 1) ∧
      (p.tick c).attrFeed = (if reloadDot p.dot.val then p.atLatch else p.attrFeed) ∧
      (p.tick c).ntLatch = (if fetchDot 1 p.dot.val then p.read c (tileAddr p.v) else p.ntLatch) ∧
      (p.tick c).atLatch =
        (if fetchDot 3 p.dot.val then attributeBits p.v (p.read c (attributeAddr p.v)) else p.atLatch) ∧
      (p.tick c).ptLoLatch =
        (if fetchDot 5 p.dot.val then p.read c (BitVec.ofNat 14 (planeAddr p)) else p.ptLoLatch) ∧
      (p.tick c).ptHiLatch =
        (if fetchDot 7 p.dot.val then p.read c (BitVec.ofNat 14 (planeAddr p + 8)) else p.ptHiLatch) ∧
      (p.scanline.val < 240 → 1 ≤ p.dot.val → p.dot.val ≤ 256 →
        (p.tick c).frame.read (p.scanline.val * 256 + (p.dot.val - 1)) = pixelByte (p.tick c))) ∧
    (p.rendering = false ∨ p.fetchLine = false →
      (p.tick c).bgPatLo = p.bgPatLo ∧ (p.tick c).bgPatHi = p.bgPatHi ∧ (p.tick c).bgAttrLo = p.bgAttrLo ∧
      (p.tick c).bgAttrHi = p.bgAttrHi ∧ (p.tick c).attrFeed = p.attrFeed ∧ (p.tick c).ntLatch = p.ntLatch ∧
      (p.tick c).atLatch = p.atLatch ∧ (p.tick c).ptLoLatch = p.ptLoLatch ∧ (p.tick c).ptHiLatch = p.ptHiLatch ∧
      (p.tick c).frame = p.frame) ∧
    ∀ x y : Nat, (p.renderPixel c x y).frame.read (y * 256 + x) = pixelByte p ∧
      ∀ k, k ≠ y * 256 + x → (p.renderPixel c x y).frame.read k = p.frame.read k

/-! ## The host interface -/

/-- R219, R23: with `FLAT` the host may load registers, P through `SetP`, and any bytes of memory, of which the last given
for an address counts, and nothing else changes. The load interaction is the spec's decision D20. That a load with `NES`
changes nothing is the model's choice (notes/assumptions/15.md). -/
def Obligations.HostLoadsFlatOnly : Prop :=
  ∀ (s : State) (a x y sp p : Byte) (pc : Word) (mem : List (Word × Byte)), s.wf = true →
    (s.params.bus = .nes → s.loadState a x y sp p pc mem = s) ∧
    (s.params.bus = .flat →
      (s.loadState a x y sp p pc mem).cpu = ⟨a, x, y, sp, pc, Flags.ofByte p⟩ ∧
      (∀ b, (s.loadState a x y sp p pc mem).peek b =
        match mem.reverse.find? (fun e => e.1 == b) with
        | some e => some e.2
        | none => s.peek b) ∧
      s.loadState a x y sp p pc mem = { s with
        cpu := (s.loadState a x y sp p pc mem).cpu, ram := (s.loadState a x y sp p pc mem).ram })

/-- R58, R59, R10: an image constructs a machine exactly if it begins with the magic, names mapper 0, declares one or two PRG
banks and holds all the ROM its header declares; the machine is then the power-on machine of the given `RAM_INIT` and
inputs with that PRG and CHR ROM, and its mirroring is bit 0 of byte 6. That a bank count other than 1 or 2 is refused is
the model's choice (notes/assumptions/8.md). -/
def Obligations.ImageConstruction : Prop :=
  ∀ (m : RamInit) (inp : Inputs) (img : List Byte),
    ((∃ s, State.ofImage m inp img = .ok s) ↔
      img.take 4 = [0x4E#8, 0x45#8, 0x53#8, 0x1A#8] ∧
      imageByte img 7 / 16 * 16 + imageByte img 6 / 16 = 0 ∧
      (imageByte img 4 = 1 ∨ imageByte img 4 = 2) ∧
      16 + imageByte img 4 * 0x4000 + imageByte img 5 * 0x2000 ≤ img.length) ∧
    ∀ s, State.ofImage m inp img = .ok s →
      s = State.construct ⟨.nes, .binary⟩ m s.cart inp ∧ s.cart.prgBanks = imageByte img 4 ∧
      s.cart.prgRam = m.prgRam ∧
      s.cart.mirroring = (if imageByte img 6 % 2 = 0 then .horizontal else .vertical) ∧
      (∀ n, n < imageByte img 4 * 0x4000 → s.cart.prgRom.read n = img.getD (16 + n) 0#8) ∧
      (imageByte img 5 ≠ 0 → ∀ n, n < 0x2000 →
        s.cart.readChr n = img.getD (16 + imageByte img 4 * 0x4000 + n) 0#8) ∧
      (m.wf .nes = true → s.wf = true)
end

