-- ==== Sys2Proof/Laws/Memory.lean ====
section
/-! SUPPORT. Byte memories: a read after a write, and that a write keeps the canonical form. -/

namespace Sys2Proof.Machine

/-- The canonical form from `lo` on holds from any lower bound. -/
theorem Memory.wfFrom_mono {m : Memory} {lo lo' hi : Nat} (h : Memory.wfFrom lo hi m = true)
    (hl : lo' ≤ lo) : Memory.wfFrom lo' hi m = true := by
  cases m with
  | nil => rfl
  | cons e m =>
    obtain ⟨k, v⟩ := e
    simp only [Memory.wfFrom, Bool.and_eq_true, decide_eq_true_eq] at h ⊢
    exact ⟨⟨⟨by omega, h.1.1.2⟩, h.1.2⟩, h.2⟩

/-- Below its lower bound a canonical memory lists nothing. -/
theorem Memory.read_below {m : Memory} {lo hi a : Nat} (h : Memory.wfFrom lo hi m = true) (ha : a < lo) :
    Memory.read m a = Memory.unlisted := by
  induction m generalizing lo with
  | nil => rfl
  | cons e m ih =>
    obtain ⟨k, v⟩ := e
    simp only [Memory.wfFrom, Bool.and_eq_true, decide_eq_true_eq] at h
    rw [Memory.read, if_neg (by omega)]
    exact ih h.2 (by omega)

/-- An entry in front of a canonical rest. -/
theorem Memory.entry_wf {m : Memory} {lo hi a : Nat} {v : Byte} (h : Memory.wfFrom (a + 1) hi m = true)
    (hl : lo ≤ a) (hh : a < hi) : Memory.wfFrom lo hi (Memory.entry a v m) = true := by
  unfold Memory.entry
  split
  · exact Memory.wfFrom_mono h (by omega)
  · next hv => simp [Memory.wfFrom, h, hl, hh, hv]

/-- A write keeps the canonical form. -/
theorem Memory.write_wfFrom {m : Memory} {lo hi a : Nat} (v : Byte) (h : Memory.wfFrom lo hi m = true)
    (hl : lo ≤ a) (hh : a < hi) : Memory.wfFrom lo hi (Memory.write m a v) = true := by
  induction m generalizing lo with
  | nil => exact Memory.entry_wf rfl hl hh
  | cons e m ih =>
    obtain ⟨k, w⟩ := e
    have h' := h
    simp only [Memory.wfFrom, Bool.and_eq_true, decide_eq_true_eq] at h
    obtain ⟨⟨⟨h1, h2⟩, h3⟩, h4⟩ := h
    unfold Memory.write
    split
    · next hak =>
      refine Memory.entry_wf ?_ hl hh
      simp only [Memory.wfFrom, Bool.and_eq_true, decide_eq_true_eq]
      exact ⟨⟨⟨by omega, h2⟩, h3⟩, h4⟩
    · split
      · next hak => subst hak; exact Memory.entry_wf h4 hl hh
      · simp only [Memory.wfFrom, Bool.and_eq_true, decide_eq_true_eq]
        exact ⟨⟨⟨h1, h2⟩, h3⟩, ih h4 (by omega)⟩

/-- A write inside the memory keeps the canonical form. -/
theorem Memory.write_wf {m : Memory} {size a : Nat} (v : Byte) (h : Memory.wf size m = true) (ha : a < size) :
    Memory.wf size (Memory.write m a v) = true := Memory.write_wfFrom v h (Nat.zero_le a) ha

/-- What an entry in front of a canonical rest reads as. -/
theorem Memory.read_entry {m : Memory} {hi a b : Nat} {v : Byte} (h : Memory.wfFrom (a + 1) hi m = true) :
    Memory.read (Memory.entry a v m) b = if b = a then v else Memory.read m b := by
  unfold Memory.entry
  split
  · next hv =>
    split
    · next hb => subst hb; rw [hv]; exact Memory.read_below h (by omega)
    · rfl
  · rfl

/-- A read after a write, from any lower bound of the form. -/
theorem Memory.read_write_from {m : Memory} {lo hi a b : Nat} (v : Byte) (h : Memory.wfFrom lo hi m = true) :
    Memory.read (Memory.write m a v) b = if b = a then v else Memory.read m b := by
  induction m generalizing lo with
  | nil => exact Memory.read_entry (hi := 0) rfl
  | cons e m ih =>
    obtain ⟨k, w⟩ := e
    have h' := h
    simp only [Memory.wfFrom, Bool.and_eq_true, decide_eq_true_eq] at h
    obtain ⟨⟨⟨h1, h2⟩, h3⟩, h4⟩ := h
    unfold Memory.write
    split
    · next hak =>
      refine Memory.read_entry (hi := hi) ?_
      simp only [Memory.wfFrom, Bool.and_eq_true, decide_eq_true_eq]
      exact ⟨⟨⟨by omega, h2⟩, h3⟩, h4⟩
    · split
      · next hak =>
        subst hak
        rw [Memory.read_entry h4, Memory.read]
        split <;> rfl
      · next hak hne =>
        rw [Memory.read, Memory.read, ih h4]
        split
        · next hb => subst hb; rw [if_neg (by omega)]
        · rfl

/-- A read after a write gives the value written there, and elsewhere what was there. -/
theorem Memory.read_write {m : Memory} {size a : Nat} (v : Byte) (b : Nat) (h : Memory.wf size m = true) :
    Memory.read (Memory.write m a v) b = if b = a then v else Memory.read m b :=
  Memory.read_write_from v h

/-- Loading consecutive bytes keeps the canonical form. -/
theorem Memory.writeList_wf {size : Nat} (vs : List Byte) {m : Memory} {a : Nat} (h : Memory.wf size m = true)
    (ha : a + vs.length ≤ size) : Memory.wf size (Memory.writeList m a vs) = true := by
  induction vs generalizing m a with
  | nil => exact h
  | cons v vs ih =>
    simp only [List.length_cons] at ha
    exact ih (Memory.write_wf v h (by omega)) (by omega)

/-- A read after loading consecutive bytes gives the byte loaded there, and elsewhere what was there. -/
theorem Memory.read_writeList {size : Nat} (vs : List Byte) {m : Memory} {a : Nat} (h : Memory.wf size m = true)
    (ha : a + vs.length ≤ size) (n : Nat) : (Memory.writeList m a vs).read n =
      if a ≤ n ∧ n < a + vs.length then vs.getD (n - a) 0#8 else m.read n := by
  induction vs generalizing m a with
  | nil => simp [Memory.writeList]
  | cons v vs ih =>
    simp only [List.length_cons] at ha ⊢
    rw [Memory.writeList, ih (Memory.write_wf v h (by omega)) (by omega), Memory.read_write v _ h]
    by_cases h1 : n = a
    · subst h1
      rw [if_neg (by omega), if_pos rfl, if_pos (by omega)]
      simp
    · by_cases h2 : a + 1 ≤ n ∧ n < a + 1 + vs.length
      · rw [if_pos h2, if_pos (by omega), show n - a = n - (a + 1) + 1 by omega]
        simp
      · rw [if_neg h2, if_neg h1, if_neg (by omega)]

/-- Writing a list of bytes, each at its own address, keeps the canonical form. -/
theorem Memory.foldl_write_wf {α : Type} {size : Nat} (key : α → Nat) (val : α → Byte) (hk : ∀ e, key e < size)
    (es : List α) {m : Memory} (h : Memory.wf size m = true) :
    Memory.wf size (es.foldl (fun m e => m.write (key e) (val e)) m) = true := by
  induction es generalizing m with
  | nil => exact h
  | cons e es ih => exact ih (Memory.write_wf _ h (hk e))

/-- A read after writing a list of bytes gives the last one written there, and elsewhere what was there. -/
theorem Memory.read_foldl_write {α : Type} {size : Nat} (key : α → Nat) (val : α → Byte) (hk : ∀ e, key e < size)
    (es : List α) {m : Memory} (h : Memory.wf size m = true) (n : Nat) :
    (es.foldl (fun m e => m.write (key e) (val e)) m).read n =
      ((es.reverse.find? (fun e => key e == n)).map val).getD (m.read n) := by
  induction es generalizing m with
  | nil => rfl
  | cons e es ih =>
    rw [List.foldl_cons, ih (Memory.write_wf _ h (hk e)), Memory.read_write _ _ h, List.reverse_cons,
      List.find?_append]
    cases es.reverse.find? (fun e => key e == n) with
    | some x => rfl
    | none =>
      by_cases hn : key e = n
      · simp [hn]
      · simp [hn, Ne.symm hn]

end Sys2Proof.Machine
end

