-- ==== Sys2Proof/Laws/Ppu.lean ====
section
/-! SUPPORT. The PPU: what one dot leaves unchanged, where it moves, and that the dot, the register
port and the bus keep the PPU's canonical form. -/

namespace Sys2Proof.Machine

/-! ## What a dot leaves unchanged -/

/-- The PPU fields that no dot writes: the memories reached through the ports, the registers of the
port, and what `renderActions` does not publish (R203). -/
def Ppu.samePort (p q : Ppu) : Prop :=
  q.nt = p.nt ∧ q.pal = p.pal ∧ q.oam = p.oam ∧ q.ctrl = p.ctrl ∧ q.mask = p.mask ∧ q.t = p.t ∧
    q.fineX = p.fineX ∧ q.w = p.w ∧ q.oamAddr = p.oamAddr ∧ q.readBuffer = p.readBuffer

theorem Ppu.samePort_refl (p : Ppu) : p.samePort p := by simp [Ppu.samePort]

theorem Ppu.samePort_trans {p q r : Ppu} (h : p.samePort q) (k : q.samePort r) : p.samePort r := by
  simp only [Ppu.samePort] at *
  simp [h, k]

/-- `when b f` keeps a transitive relation that `f` keeps. -/
theorem when_rel {R : Ppu → Ppu → Prop} {p q : Ppu} {b : Bool} {f : Ppu → Ppu}
    (trans : ∀ p q r, R p q → R q r → R p r) (h : R q (f q)) (k : R p q) : R p (when b f q) := by
  unfold when
  split
  · exact trans _ _ _ k h
  · exact k

/-- What the actions of a dot do beside moving the dot: a relation that every action keeps is kept
by all of them together. -/
theorem Ppu.renderActions_rel {R : Ppu → Ppu → Prop} (c : Cart) (refl : ∀ p, R p p)
    (trans : ∀ p q r, R p q → R q r → R p r) (hshift : ∀ p, R p p.shift) (hreload : ∀ p, R p p.reload)
    (hfetch : ∀ p k, R p (p.fetchPhase c k)) (hv : ∀ (p : Ppu) v, R p { p with v := v })
    (hpixel : ∀ (p : Ppu) x y, x < 256 → y < 240 → R p (p.renderPixel c x y)) (p : Ppu) (d y : Nat) :
    R p (p.renderActions c d y) := by
  have last : ∀ q, R p q → R p (when (decide (y < 240) && 1 ≤ d && d ≤ 256)
      (fun q => q.renderPixel c (d - 1) y) q) := by
    intro q k
    unfold when
    split
    · next h =>
      simp only [Bool.and_eq_true, decide_eq_true_eq] at h
      exact trans _ _ _ k (hpixel _ _ _ (by omega) h.1.1)
    · exact k
  unfold Ppu.renderActions
  exact last _ (when_rel trans (hv _ _) (when_rel trans (hv _ _) (when_rel trans (hv _ _)
    (when_rel trans (hfetch _ _) (when_rel trans (hreload _) (when_rel trans (hshift _) (refl p)))))))

theorem Ppu.fetchPhase_samePort (p : Ppu) (c : Cart) (k : Nat) : p.samePort (p.fetchPhase c k) := by
  unfold Ppu.fetchPhase
  split <;> simp [Ppu.samePort]

theorem Ppu.vblankActions_samePort (p : Ppu) : p.samePort p.vblankActions := by
  unfold Ppu.vblankActions
  (repeat' split) <;> simp [Ppu.samePort, Ppu.setVblank, Ppu.clearVblank]

theorem Ppu.advance_samePort (p : Ppu) : p.samePort p.advance := by
  unfold Ppu.advance when
  (repeat' split) <;> simp [Ppu.samePort, Ppu.publishFrame]

theorem Ppu.renderActions_samePort (p : Ppu) (c : Cart) (d y : Nat) :
    p.samePort (p.renderActions c d y) :=
  Ppu.renderActions_rel c Ppu.samePort_refl (fun _ _ _ h k => Ppu.samePort_trans h k)
    (fun _ => by simp [Ppu.samePort, Ppu.shift]) (fun _ => by simp [Ppu.samePort, Ppu.reload])
    (fun p k => p.fetchPhase_samePort c k) (fun _ _ => by simp [Ppu.samePort])
    (fun _ _ _ _ _ => by simp [Ppu.samePort, Ppu.renderPixel]) p d y

/-- A dot leaves the port registers and the memories behind the ports unchanged. -/
theorem Ppu.tick_samePort (p : Ppu) (c : Cart) : p.samePort (p.tick c) := by
  unfold Ppu.tick
  refine Ppu.samePort_trans p.vblankActions_samePort (Ppu.samePort_trans ?_ (Ppu.advance_samePort _))
  split
  · exact Ppu.renderActions_samePort _ c _ _
  · exact Ppu.samePort_refl _

/-! ## The background pipeline (R203 to R205) -/

/-- What `when` does to a field. -/
theorem apply_when {α : Type} (f : Ppu → α) (b : Bool) (g : Ppu → Ppu) (p : Ppu) :
    f (when b g p) = if b then f (g p) else f p := by
  cases b <;> rfl

/-- The latches and the shift registers are those of before. -/
def Ppu.samePipeline (p q : Ppu) : Prop :=
  q.bgPatLo = p.bgPatLo ∧ q.bgPatHi = p.bgPatHi ∧ q.bgAttrLo = p.bgAttrLo ∧ q.bgAttrHi = p.bgAttrHi ∧
    q.attrFeed = p.attrFeed ∧ q.ntLatch = p.ntLatch ∧ q.atLatch = p.atLatch ∧ q.ptLoLatch = p.ptLoLatch ∧
    q.ptHiLatch = p.ptHiLatch

/-- Setting and clearing vblank leaves the pipeline, `v` and the frame buffer alone (R211). -/
theorem Ppu.vblankActions_samePipeline (p : Ppu) : p.samePipeline p.vblankActions ∧ p.vblankActions.v = p.v ∧
    p.vblankActions.frame = p.frame := by
  unfold Ppu.vblankActions
  (repeat' split) <;> simp [Ppu.samePipeline, Ppu.setVblank, Ppu.clearVblank]

/-- So does moving to the next dot. -/
theorem Ppu.advance_samePipeline (p : Ppu) : p.samePipeline p.advance ∧ p.advance.v = p.v ∧
    p.advance.frame = p.frame := by
  unfold Ppu.advance when
  (repeat' split) <;> simp [Ppu.samePipeline, Ppu.publishFrame]

/-- A fetch phase leaves the shift registers and the attribute feed alone, and the frame buffer (R204). -/
theorem Ppu.fetchPhase_shifters (p : Ppu) (c : Cart) (k : Nat) :
    (p.fetchPhase c k).bgPatLo = p.bgPatLo ∧ (p.fetchPhase c k).bgPatHi = p.bgPatHi ∧
    (p.fetchPhase c k).bgAttrLo = p.bgAttrLo ∧ (p.fetchPhase c k).bgAttrHi = p.bgAttrHi ∧
    (p.fetchPhase c k).attrFeed = p.attrFeed ∧ (p.fetchPhase c k).frame = p.frame := by
  unfold Ppu.fetchPhase
  split <;> simp

/-- What a fetch phase leaves in each latch and in `v` (R204). -/
theorem Ppu.fetchPhase_latches (p : Ppu) (c : Cart) (k : Nat) :
    (p.fetchPhase c k).ntLatch = (if k = 1 then p.read c p.ntAddr else p.ntLatch) ∧
    (p.fetchPhase c k).atLatch = (if k = 3 then (p.read c p.attrAddr >>> p.attrShift).setWidth 2 else p.atLatch) ∧
    (p.fetchPhase c k).ptLoLatch = (if k = 5 then p.read c p.patternAddr else p.ptLoLatch) ∧
    (p.fetchPhase c k).ptHiLatch = (if k = 7 then p.read c (p.patternAddr + 8#14) else p.ptHiLatch) ∧
    (p.fetchPhase c k).v = (if k = 0 then incX p.v else p.v) := by
  unfold Ppu.fetchPhase
  split <;> simp_all

/-! ## Where a dot moves to -/

/-- The dot and the scanline are those of before. -/
def Ppu.samePos (p q : Ppu) : Prop := q.dot = p.dot ∧ q.scanline = p.scanline

theorem Ppu.vblankActions_samePos (p : Ppu) : p.samePos p.vblankActions := by
  unfold Ppu.vblankActions
  (repeat' split) <;> simp [Ppu.samePos, Ppu.setVblank, Ppu.clearVblank]

theorem Ppu.renderActions_samePos (p : Ppu) (c : Cart) (d y : Nat) :
    p.samePos (p.renderActions c d y) := by
  refine Ppu.renderActions_rel c (fun _ => ⟨rfl, rfl⟩) (fun _ _ _ h k => ?_) (fun _ => ⟨rfl, rfl⟩)
    (fun _ => ⟨rfl, rfl⟩) (fun p k => ?_) (fun _ _ => ⟨rfl, rfl⟩) (fun _ _ _ _ _ => ⟨rfl, rfl⟩) p d y
  · simp only [Ppu.samePos] at *
    simp [h, k]
  · unfold Ppu.fetchPhase
    split <;> exact ⟨rfl, rfl⟩

/-- The number of dots in a frame (R230). -/
def dotsPerFrame : Nat := 341 * 262

theorem Ppu.framePos_lt (p : Ppu) : p.framePos < dotsPerFrame := by
  have h := p.dot.isLt
  have k := p.scanline.isLt
  unfold Ppu.framePos dotsPerFrame
  omega

theorem Ppu.advance_framePos (p : Ppu) : p.advance.framePos = (p.framePos + 1) % dotsPerFrame := by
  have h := p.dot.isLt
  have k := p.scanline.isLt
  have hd : ∀ q : Ppu, q.publishFrame.dot = q.dot := fun _ => rfl
  have hs : ∀ q : Ppu, q.publishFrame.scanline = q.scanline := fun _ => rfl
  unfold Ppu.advance Ppu.framePos dotsPerFrame when
  split
  · next h0 =>
    have e : (p.scanline + 1).val = (p.scanline.val + 1) % 262 := by simp [Fin.val_add]
    split <;> simp only [hd, hs, e, Fin.val_zero] <;> omega
  · next h0 =>
    have e : (p.dot + 1).val = p.dot.val + 1 := by
      simp only [Fin.val_add, Fin.val_one]
      omega
    simp only [e]
    omega

theorem Ppu.samePos_framePos {p q : Ppu} (h : p.samePos q) : q.framePos = p.framePos := by
  simp only [Ppu.framePos, h.1, h.2]

theorem Ppu.samePos_trans {p q r : Ppu} (h : p.samePos q) (k : q.samePos r) : p.samePos r :=
  ⟨k.1.trans h.1, k.2.trans h.2⟩

/-- A dot moves the PPU one place on in its frame of 89342 dots. -/
theorem Ppu.tick_framePos (p : Ppu) (c : Cart) : (p.tick c).framePos = (p.framePos + 1) % dotsPerFrame := by
  unfold Ppu.tick
  rw [Ppu.advance_framePos, Ppu.samePos_framePos (p := p)]
  split
  · exact Ppu.samePos_trans p.vblankActions_samePos (Ppu.renderActions_samePos _ c _ _)
  · exact p.vblankActions_samePos

/-! ## The canonical form -/

/-- Clearing bits of STATUS keeps its low bits clear. -/
theorem status_and_wf (b m : Byte) (h : b &&& 0x7F#8 = 0#8) : b &&& m &&& 0x7F#8 = 0#8 := by
  rw [BitVec.and_assoc, BitVec.and_comm m, ← BitVec.and_assoc, h]
  simp

theorem status_or_wf (b : Byte) (h : b &&& 0x7F#8 = 0#8) : (b ||| 0x80#8) &&& 0x7F#8 = 0#8 := by
  revert h
  revert b
  decide

/-- What `Ppu.wf` says, as one proposition. -/
theorem Ppu.wf_iff (p : Ppu) : p.wf = true ↔
    Memory.wf 0x800 p.nt = true ∧ Memory.wf 0x20 p.pal = true ∧ Memory.wf 0x100 p.oam = true ∧
      Memory.wf 0xF000 p.frame = true ∧ Memory.wf 0xF000 p.sinkFrame = true ∧ p.status &&& 0x7F#8 = 0#8 := by
  simp [Ppu.wf, and_assoc]

theorem ntIndex_lt (m : Mirroring) (a : Nat) : ntIndex m a < 0x800 := by
  unfold ntIndex
  cases m <;> dsimp only <;> omega

theorem palIndex_lt (a : Nat) : palIndex a < 0x20 := by
  unfold palIndex
  dsimp only
  split <;> omega

theorem Ppu.write_wf {p : Ppu} (h : p.wf = true) (k : Cart) (a : PAddr) (d : Byte) : (p.write k a d).wf = true := by
  rw [Ppu.wf_iff] at *
  unfold Ppu.write
  (repeat' split)
  · exact h
  · exact ⟨Memory.write_wf d h.1 (ntIndex_lt _ _), h.2⟩
  · exact ⟨h.1, Memory.write_wf d h.2.1 (palIndex_lt _), h.2.2⟩

theorem Ppu.readRegister_wf {p : Ppu} (h : p.wf = true) (k : Cart) (r : Nat) : (p.readRegister k r).2.wf = true := by
  rw [Ppu.wf_iff] at *
  unfold Ppu.readRegister
  split
  · exact ⟨h.1, h.2.1, h.2.2.1, h.2.2.2.1, h.2.2.2.2.1, by simp [Ppu.statusRead, h]⟩
  · exact h
  · unfold Ppu.dataRead
    dsimp only
    split <;> exact h
  · exact h

theorem Ppu.writeRegister_wf {p : Ppu} (h : p.wf = true) (k : Cart) (r : Nat) (d : Byte) :
    (p.writeRegister k r d).wf = true := by
  have hw := Ppu.write_wf h k (p.v.setWidth 14) d
  rw [Ppu.wf_iff] at *
  unfold Ppu.writeRegister
  split
  · exact h
  · exact h
  · exact h
  · exact ⟨h.1, h.2.1, Memory.write_wf d h.2.2.1 p.oamAddr.isLt, h.2.2.2⟩
  · unfold Ppu.scrollWrite
    split <;> exact h
  · unfold Ppu.addrWrite
    split <;> exact h
  · exact hw
  · exact h

theorem Ppu.renderActions_wf {p : Ppu} (h : p.wf = true) (c : Cart) (d y : Nat) : (p.renderActions c d y).wf = true := by
  refine Ppu.renderActions_rel (R := fun p q => p.wf = true → q.wf = true) c (fun _ h => h)
    (fun _ _ _ h k g => k (h g)) (fun _ h => h) (fun _ h => h) (fun p k h => ?_) (fun _ _ h => h)
    (fun p x y hx hy h => ?_) p d y h
  · unfold Ppu.fetchPhase
    split <;> exact h
  · rw [Ppu.wf_iff] at *
    exact ⟨h.1, h.2.1, h.2.2.1, Memory.write_wf _ h.2.2.2.1 (by omega), h.2.2.2.2⟩

/-- A dot keeps the canonical form. -/
theorem Ppu.tick_wf {p : Ppu} (h : p.wf = true) (c : Cart) : (p.tick c).wf = true := by
  have h1 : p.vblankActions.wf = true := by
    rw [Ppu.wf_iff] at *
    unfold Ppu.vblankActions
    (repeat' split)
    · exact ⟨h.1, h.2.1, h.2.2.1, h.2.2.2.1, h.2.2.2.2.1, status_or_wf _ h.2.2.2.2.2⟩
    · exact ⟨h.1, h.2.1, h.2.2.1, h.2.2.2.1, h.2.2.2.2.1, status_and_wf _ _ h.2.2.2.2.2⟩
    · exact h
    · exact h
  have h2 : ∀ q : Ppu, q.wf = true → q.advance.wf = true := by
    intro q hq
    rw [Ppu.wf_iff] at *
    unfold Ppu.advance when
    (repeat' split)
    · exact ⟨hq.1, hq.2.1, hq.2.2.1, hq.2.2.2.1, hq.2.2.2.1, hq.2.2.2.2.2⟩
    · exact hq
    · exact hq
  unfold Ppu.tick
  refine h2 _ ?_
  split
  · exact Ppu.renderActions_wf h1 c _ _
  · exact h1

end Sys2Proof.Machine
end

