-- ==== Sys2Proof/Laws/State.lean ====
section
/-! SUPPORT. One lemma per field per update of the state record, and of the flags, and the
fields at construction. -/

namespace Sys2Proof.Machine

variable (s : State) (p : Flags)

/-! ### setA -/

@[simp] theorem State.setA_a (v : Byte) : (s.setA v).cpu.a = v := rfl
@[simp] theorem State.setA_x (v : Byte) : (s.setA v).cpu.x = s.cpu.x := rfl
@[simp] theorem State.setA_y (v : Byte) : (s.setA v).cpu.y = s.cpu.y := rfl
@[simp] theorem State.setA_s (v : Byte) : (s.setA v).cpu.s = s.cpu.s := rfl
@[simp] theorem State.setA_pc (v : Byte) : (s.setA v).cpu.pc = s.cpu.pc := rfl
@[simp] theorem State.setA_p (v : Byte) : (s.setA v).cpu.p = s.cpu.p := rfl
@[simp] theorem State.setA_params (v : Byte) : (s.setA v).params = s.params := rfl
@[simp] theorem State.setA_lat (v : Byte) : (s.setA v).lat = s.lat := rfl
@[simp] theorem State.setA_cycles (v : Byte) : (s.setA v).cycles = s.cycles := rfl
@[simp] theorem State.setA_queue (v : Byte) : (s.setA v).queue = s.queue := rfl
@[simp] theorem State.setA_ram (v : Byte) : (s.setA v).ram = s.ram := rfl
@[simp] theorem State.setA_ppu (v : Byte) : (s.setA v).ppu = s.ppu := rfl
@[simp] theorem State.setA_cart (v : Byte) : (s.setA v).cart = s.cart := rfl
@[simp] theorem State.setA_inputs (v : Byte) : (s.setA v).inputs = s.inputs := rfl
@[simp] theorem State.setA_extCalls (v : Byte) : (s.setA v).extCalls = s.extCalls := rfl
@[simp] theorem State.setA_apuTicks (v : Byte) : (s.setA v).apuTicks = s.apuTicks := rfl
@[simp] theorem State.setA_busLog (v : Byte) : (s.setA v).busLog = s.busLog := rfl
theorem State.setA_cpu (v : Byte) : (s.setA v).cpu = { s.cpu with a := v } := rfl

/-! ### setX -/

@[simp] theorem State.setX_a (v : Byte) : (s.setX v).cpu.a = s.cpu.a := rfl
@[simp] theorem State.setX_x (v : Byte) : (s.setX v).cpu.x = v := rfl
@[simp] theorem State.setX_y (v : Byte) : (s.setX v).cpu.y = s.cpu.y := rfl
@[simp] theorem State.setX_s (v : Byte) : (s.setX v).cpu.s = s.cpu.s := rfl
@[simp] theorem State.setX_pc (v : Byte) : (s.setX v).cpu.pc = s.cpu.pc := rfl
@[simp] theorem State.setX_p (v : Byte) : (s.setX v).cpu.p = s.cpu.p := rfl
@[simp] theorem State.setX_params (v : Byte) : (s.setX v).params = s.params := rfl
@[simp] theorem State.setX_lat (v : Byte) : (s.setX v).lat = s.lat := rfl
@[simp] theorem State.setX_cycles (v : Byte) : (s.setX v).cycles = s.cycles := rfl
@[simp] theorem State.setX_queue (v : Byte) : (s.setX v).queue = s.queue := rfl
@[simp] theorem State.setX_ram (v : Byte) : (s.setX v).ram = s.ram := rfl
@[simp] theorem State.setX_ppu (v : Byte) : (s.setX v).ppu = s.ppu := rfl
@[simp] theorem State.setX_cart (v : Byte) : (s.setX v).cart = s.cart := rfl
@[simp] theorem State.setX_inputs (v : Byte) : (s.setX v).inputs = s.inputs := rfl
@[simp] theorem State.setX_extCalls (v : Byte) : (s.setX v).extCalls = s.extCalls := rfl
@[simp] theorem State.setX_apuTicks (v : Byte) : (s.setX v).apuTicks = s.apuTicks := rfl
@[simp] theorem State.setX_busLog (v : Byte) : (s.setX v).busLog = s.busLog := rfl
theorem State.setX_cpu (v : Byte) : (s.setX v).cpu = { s.cpu with x := v } := rfl

/-! ### setY -/

@[simp] theorem State.setY_a (v : Byte) : (s.setY v).cpu.a = s.cpu.a := rfl
@[simp] theorem State.setY_x (v : Byte) : (s.setY v).cpu.x = s.cpu.x := rfl
@[simp] theorem State.setY_y (v : Byte) : (s.setY v).cpu.y = v := rfl
@[simp] theorem State.setY_s (v : Byte) : (s.setY v).cpu.s = s.cpu.s := rfl
@[simp] theorem State.setY_pc (v : Byte) : (s.setY v).cpu.pc = s.cpu.pc := rfl
@[simp] theorem State.setY_p (v : Byte) : (s.setY v).cpu.p = s.cpu.p := rfl
@[simp] theorem State.setY_params (v : Byte) : (s.setY v).params = s.params := rfl
@[simp] theorem State.setY_lat (v : Byte) : (s.setY v).lat = s.lat := rfl
@[simp] theorem State.setY_cycles (v : Byte) : (s.setY v).cycles = s.cycles := rfl
@[simp] theorem State.setY_queue (v : Byte) : (s.setY v).queue = s.queue := rfl
@[simp] theorem State.setY_ram (v : Byte) : (s.setY v).ram = s.ram := rfl
@[simp] theorem State.setY_ppu (v : Byte) : (s.setY v).ppu = s.ppu := rfl
@[simp] theorem State.setY_cart (v : Byte) : (s.setY v).cart = s.cart := rfl
@[simp] theorem State.setY_inputs (v : Byte) : (s.setY v).inputs = s.inputs := rfl
@[simp] theorem State.setY_extCalls (v : Byte) : (s.setY v).extCalls = s.extCalls := rfl
@[simp] theorem State.setY_apuTicks (v : Byte) : (s.setY v).apuTicks = s.apuTicks := rfl
@[simp] theorem State.setY_busLog (v : Byte) : (s.setY v).busLog = s.busLog := rfl
theorem State.setY_cpu (v : Byte) : (s.setY v).cpu = { s.cpu with y := v } := rfl

/-! ### setS -/

@[simp] theorem State.setS_a (v : Byte) : (s.setS v).cpu.a = s.cpu.a := rfl
@[simp] theorem State.setS_x (v : Byte) : (s.setS v).cpu.x = s.cpu.x := rfl
@[simp] theorem State.setS_y (v : Byte) : (s.setS v).cpu.y = s.cpu.y := rfl
@[simp] theorem State.setS_s (v : Byte) : (s.setS v).cpu.s = v := rfl
@[simp] theorem State.setS_pc (v : Byte) : (s.setS v).cpu.pc = s.cpu.pc := rfl
@[simp] theorem State.setS_p (v : Byte) : (s.setS v).cpu.p = s.cpu.p := rfl
@[simp] theorem State.setS_params (v : Byte) : (s.setS v).params = s.params := rfl
@[simp] theorem State.setS_lat (v : Byte) : (s.setS v).lat = s.lat := rfl
@[simp] theorem State.setS_cycles (v : Byte) : (s.setS v).cycles = s.cycles := rfl
@[simp] theorem State.setS_queue (v : Byte) : (s.setS v).queue = s.queue := rfl
@[simp] theorem State.setS_ram (v : Byte) : (s.setS v).ram = s.ram := rfl
@[simp] theorem State.setS_ppu (v : Byte) : (s.setS v).ppu = s.ppu := rfl
@[simp] theorem State.setS_cart (v : Byte) : (s.setS v).cart = s.cart := rfl
@[simp] theorem State.setS_inputs (v : Byte) : (s.setS v).inputs = s.inputs := rfl
@[simp] theorem State.setS_extCalls (v : Byte) : (s.setS v).extCalls = s.extCalls := rfl
@[simp] theorem State.setS_apuTicks (v : Byte) : (s.setS v).apuTicks = s.apuTicks := rfl
@[simp] theorem State.setS_busLog (v : Byte) : (s.setS v).busLog = s.busLog := rfl
theorem State.setS_cpu (v : Byte) : (s.setS v).cpu = { s.cpu with s := v } := rfl

/-! ### setPc -/

@[simp] theorem State.setPc_a (v : Word) : (s.setPc v).cpu.a = s.cpu.a := rfl
@[simp] theorem State.setPc_x (v : Word) : (s.setPc v).cpu.x = s.cpu.x := rfl
@[simp] theorem State.setPc_y (v : Word) : (s.setPc v).cpu.y = s.cpu.y := rfl
@[simp] theorem State.setPc_s (v : Word) : (s.setPc v).cpu.s = s.cpu.s := rfl
@[simp] theorem State.setPc_pc (v : Word) : (s.setPc v).cpu.pc = v := rfl
@[simp] theorem State.setPc_p (v : Word) : (s.setPc v).cpu.p = s.cpu.p := rfl
@[simp] theorem State.setPc_params (v : Word) : (s.setPc v).params = s.params := rfl
@[simp] theorem State.setPc_lat (v : Word) : (s.setPc v).lat = s.lat := rfl
@[simp] theorem State.setPc_cycles (v : Word) : (s.setPc v).cycles = s.cycles := rfl
@[simp] theorem State.setPc_queue (v : Word) : (s.setPc v).queue = s.queue := rfl
@[simp] theorem State.setPc_ram (v : Word) : (s.setPc v).ram = s.ram := rfl
@[simp] theorem State.setPc_ppu (v : Word) : (s.setPc v).ppu = s.ppu := rfl
@[simp] theorem State.setPc_cart (v : Word) : (s.setPc v).cart = s.cart := rfl
@[simp] theorem State.setPc_inputs (v : Word) : (s.setPc v).inputs = s.inputs := rfl
@[simp] theorem State.setPc_extCalls (v : Word) : (s.setPc v).extCalls = s.extCalls := rfl
@[simp] theorem State.setPc_apuTicks (v : Word) : (s.setPc v).apuTicks = s.apuTicks := rfl
@[simp] theorem State.setPc_busLog (v : Word) : (s.setPc v).busLog = s.busLog := rfl
theorem State.setPc_cpu (v : Word) : (s.setPc v).cpu = { s.cpu with pc := v } := rfl

/-! ### setP -/

@[simp] theorem State.setP_a (v : Flags) : (s.setP v).cpu.a = s.cpu.a := rfl
@[simp] theorem State.setP_x (v : Flags) : (s.setP v).cpu.x = s.cpu.x := rfl
@[simp] theorem State.setP_y (v : Flags) : (s.setP v).cpu.y = s.cpu.y := rfl
@[simp] theorem State.setP_s (v : Flags) : (s.setP v).cpu.s = s.cpu.s := rfl
@[simp] theorem State.setP_pc (v : Flags) : (s.setP v).cpu.pc = s.cpu.pc := rfl
@[simp] theorem State.setP_p (v : Flags) : (s.setP v).cpu.p = v := rfl
@[simp] theorem State.setP_params (v : Flags) : (s.setP v).params = s.params := rfl
@[simp] theorem State.setP_lat (v : Flags) : (s.setP v).lat = s.lat := rfl
@[simp] theorem State.setP_cycles (v : Flags) : (s.setP v).cycles = s.cycles := rfl
@[simp] theorem State.setP_queue (v : Flags) : (s.setP v).queue = s.queue := rfl
@[simp] theorem State.setP_ram (v : Flags) : (s.setP v).ram = s.ram := rfl
@[simp] theorem State.setP_ppu (v : Flags) : (s.setP v).ppu = s.ppu := rfl
@[simp] theorem State.setP_cart (v : Flags) : (s.setP v).cart = s.cart := rfl
@[simp] theorem State.setP_inputs (v : Flags) : (s.setP v).inputs = s.inputs := rfl
@[simp] theorem State.setP_extCalls (v : Flags) : (s.setP v).extCalls = s.extCalls := rfl
@[simp] theorem State.setP_apuTicks (v : Flags) : (s.setP v).apuTicks = s.apuTicks := rfl
@[simp] theorem State.setP_busLog (v : Flags) : (s.setP v).busLog = s.busLog := rfl
theorem State.setP_cpu (v : Flags) : (s.setP v).cpu = { s.cpu with p := v } := rfl

/-! ### mapP -/

@[simp] theorem State.mapP_a (f : Flags → Flags) : (s.mapP f).cpu.a = s.cpu.a := rfl
@[simp] theorem State.mapP_x (f : Flags → Flags) : (s.mapP f).cpu.x = s.cpu.x := rfl
@[simp] theorem State.mapP_y (f : Flags → Flags) : (s.mapP f).cpu.y = s.cpu.y := rfl
@[simp] theorem State.mapP_s (f : Flags → Flags) : (s.mapP f).cpu.s = s.cpu.s := rfl
@[simp] theorem State.mapP_pc (f : Flags → Flags) : (s.mapP f).cpu.pc = s.cpu.pc := rfl
@[simp] theorem State.mapP_p (f : Flags → Flags) : (s.mapP f).cpu.p = f s.cpu.p := rfl
@[simp] theorem State.mapP_params (f : Flags → Flags) : (s.mapP f).params = s.params := rfl
@[simp] theorem State.mapP_lat (f : Flags → Flags) : (s.mapP f).lat = s.lat := rfl
@[simp] theorem State.mapP_cycles (f : Flags → Flags) : (s.mapP f).cycles = s.cycles := rfl
@[simp] theorem State.mapP_queue (f : Flags → Flags) : (s.mapP f).queue = s.queue := rfl
@[simp] theorem State.mapP_ram (f : Flags → Flags) : (s.mapP f).ram = s.ram := rfl
@[simp] theorem State.mapP_ppu (f : Flags → Flags) : (s.mapP f).ppu = s.ppu := rfl
@[simp] theorem State.mapP_cart (f : Flags → Flags) : (s.mapP f).cart = s.cart := rfl
@[simp] theorem State.mapP_inputs (f : Flags → Flags) : (s.mapP f).inputs = s.inputs := rfl
@[simp] theorem State.mapP_extCalls (f : Flags → Flags) : (s.mapP f).extCalls = s.extCalls := rfl
@[simp] theorem State.mapP_apuTicks (f : Flags → Flags) : (s.mapP f).apuTicks = s.apuTicks := rfl
@[simp] theorem State.mapP_busLog (f : Flags → Flags) : (s.mapP f).busLog = s.busLog := rfl

/-! ### Flags -/

@[simp] theorem Flags.setC_c (b : Bool) : (p.setC b).c = b := rfl
@[simp] theorem Flags.setC_z (b : Bool) : (p.setC b).z = p.z := rfl
@[simp] theorem Flags.setC_i (b : Bool) : (p.setC b).i = p.i := rfl
@[simp] theorem Flags.setC_d (b : Bool) : (p.setC b).d = p.d := rfl
@[simp] theorem Flags.setC_v (b : Bool) : (p.setC b).v = p.v := rfl
@[simp] theorem Flags.setC_n (b : Bool) : (p.setC b).n = p.n := rfl
@[simp] theorem Flags.setI_c (b : Bool) : (p.setI b).c = p.c := rfl
@[simp] theorem Flags.setI_z (b : Bool) : (p.setI b).z = p.z := rfl
@[simp] theorem Flags.setI_i (b : Bool) : (p.setI b).i = b := rfl
@[simp] theorem Flags.setI_d (b : Bool) : (p.setI b).d = p.d := rfl
@[simp] theorem Flags.setI_v (b : Bool) : (p.setI b).v = p.v := rfl
@[simp] theorem Flags.setI_n (b : Bool) : (p.setI b).n = p.n := rfl
@[simp] theorem Flags.setZ_c (b : Bool) : (p.setZ b).c = p.c := rfl
@[simp] theorem Flags.setZ_z (b : Bool) : (p.setZ b).z = b := rfl
@[simp] theorem Flags.setZ_i (b : Bool) : (p.setZ b).i = p.i := rfl
@[simp] theorem Flags.setZ_d (b : Bool) : (p.setZ b).d = p.d := rfl
@[simp] theorem Flags.setZ_v (b : Bool) : (p.setZ b).v = p.v := rfl
@[simp] theorem Flags.setZ_n (b : Bool) : (p.setZ b).n = p.n := rfl
@[simp] theorem Flags.setD_c (b : Bool) : (p.setD b).c = p.c := rfl
@[simp] theorem Flags.setD_z (b : Bool) : (p.setD b).z = p.z := rfl
@[simp] theorem Flags.setD_i (b : Bool) : (p.setD b).i = p.i := rfl
@[simp] theorem Flags.setD_d (b : Bool) : (p.setD b).d = b := rfl
@[simp] theorem Flags.setD_v (b : Bool) : (p.setD b).v = p.v := rfl
@[simp] theorem Flags.setD_n (b : Bool) : (p.setD b).n = p.n := rfl
@[simp] theorem Flags.setV_c (b : Bool) : (p.setV b).c = p.c := rfl
@[simp] theorem Flags.setV_z (b : Bool) : (p.setV b).z = p.z := rfl
@[simp] theorem Flags.setV_i (b : Bool) : (p.setV b).i = p.i := rfl
@[simp] theorem Flags.setV_d (b : Bool) : (p.setV b).d = p.d := rfl
@[simp] theorem Flags.setV_v (b : Bool) : (p.setV b).v = b := rfl
@[simp] theorem Flags.setV_n (b : Bool) : (p.setV b).n = p.n := rfl
@[simp] theorem Flags.setN_c (b : Bool) : (p.setN b).c = p.c := rfl
@[simp] theorem Flags.setN_z (b : Bool) : (p.setN b).z = p.z := rfl
@[simp] theorem Flags.setN_i (b : Bool) : (p.setN b).i = p.i := rfl
@[simp] theorem Flags.setN_d (b : Bool) : (p.setN b).d = p.d := rfl
@[simp] theorem Flags.setN_v (b : Bool) : (p.setN b).v = p.v := rfl
@[simp] theorem Flags.setN_n (b : Bool) : (p.setN b).n = b := rfl

/-! ### construct (R10, R41) -/

variable (c : Params) (m : RamInit) (k : Cart) (inp : Inputs)

@[simp] theorem State.construct_params : (State.construct c m k inp).params = c := rfl
@[simp] theorem State.construct_cpu : (State.construct c m k inp).cpu =
    ⟨0#8, 0#8, 0#8, 0#8, 0#16, ⟨false, false, false, false, false, false⟩⟩ := rfl
@[simp] theorem State.construct_lat : (State.construct c m k inp).lat = ⟨false, false, false, false, false, false⟩ := rfl
@[simp] theorem State.construct_cycles : (State.construct c m k inp).cycles = 0#64 := rfl
@[simp] theorem State.construct_ram : (State.construct c m k inp).ram = m.ram := rfl
@[simp] theorem State.construct_ppu : (State.construct c m k inp).ppu =
    { Ppu.powerOn with nt := m.nt, pal := m.pal, oam := m.oam } := rfl
@[simp] theorem State.construct_cart : (State.construct c m k inp).cart = { k with prgRam := m.prgRam } := rfl
@[simp] theorem State.construct_inputs : (State.construct c m k inp).inputs = inp := rfl
@[simp] theorem State.construct_busLog : (State.construct c m k inp).busLog = [] := rfl
@[simp] theorem State.construct_extCalls : (State.construct c m k inp).extCalls = [] := rfl
@[simp] theorem State.construct_apuTicks : (State.construct c m k inp).apuTicks = 0 := rfl

/-- On the NES bus the power-on Reset event is queued (R192). -/
theorem State.construct_queue_nes (d : DecimalMode) :
    (State.construct ⟨.nes, d⟩ m k inp).queue = [⟨.reset, 0#64⟩, Event.atEnd] := rfl

/-- On the flat bus only the sentinel is (R192, D20). -/
theorem State.construct_queue_flat (d : DecimalMode) :
    (State.construct ⟨.flat, d⟩ m k inp).queue = [Event.atEnd] := rfl

end Sys2Proof.Machine
end

