-- ==== Sys2Proof/Laws/Bus.lean ====
section
/-! SUPPORT. One CPU cycle: what a bus exchange, the end of a cycle, a read, a write and OAM DMA leave
unchanged, and that they keep the state well formed. -/

namespace Sys2Proof.Machine

variable (s : State) (a : Word) (v : Byte)

/-! ## The bus exchange -/

/-- A bus read can change the PPU and the record of external calls, nothing else (R52, R56). -/
theorem State.busRead_eq : (s.busRead a).2 =
    { s with ppu := (s.busRead a).2.ppu, extCalls := (s.busRead a).2.extCalls } := by
  unfold State.busRead State.nesRead
  dsimp only
  (repeat' split) <;> rfl

@[simp] theorem State.busRead_cpu : (s.busRead a).2.cpu = s.cpu := by rw [State.busRead_eq]
@[simp] theorem State.busRead_params : (s.busRead a).2.params = s.params := by rw [State.busRead_eq]
@[simp] theorem State.busRead_lat : (s.busRead a).2.lat = s.lat := by rw [State.busRead_eq]
@[simp] theorem State.busRead_cycles : (s.busRead a).2.cycles = s.cycles := by rw [State.busRead_eq]
@[simp] theorem State.busRead_queue : (s.busRead a).2.queue = s.queue := by rw [State.busRead_eq]
@[simp] theorem State.busRead_ram : (s.busRead a).2.ram = s.ram := by rw [State.busRead_eq]
@[simp] theorem State.busRead_cart : (s.busRead a).2.cart = s.cart := by rw [State.busRead_eq]
@[simp] theorem State.busRead_inputs : (s.busRead a).2.inputs = s.inputs := by rw [State.busRead_eq]
@[simp] theorem State.busRead_apuTicks : (s.busRead a).2.apuTicks = s.apuTicks := by rw [State.busRead_eq]
@[simp] theorem State.busRead_busLog : (s.busRead a).2.busLog = s.busLog := by rw [State.busRead_eq]

/-- On the flat bus a read changes nothing (R56). -/
theorem State.busRead_flat (h : s.params.bus = .flat) : s.busRead a = (s.ram.read a.toNat, s) := by
  unfold State.busRead
  rw [h]

/-- A bus write can change RAM, the PPU, the cartridge and the record of external calls (R53, R56). -/
theorem State.busWrite_eq : (s.busWrite a v).2 =
    { s with ram := (s.busWrite a v).2.ram, ppu := (s.busWrite a v).2.ppu, cart := (s.busWrite a v).2.cart,
             extCalls := (s.busWrite a v).2.extCalls } := by
  unfold State.busWrite State.nesWrite
  dsimp only
  (repeat' split) <;> rfl

@[simp] theorem State.busWrite_cpu : (s.busWrite a v).2.cpu = s.cpu := by rw [State.busWrite_eq]
@[simp] theorem State.busWrite_params : (s.busWrite a v).2.params = s.params := by rw [State.busWrite_eq]
@[simp] theorem State.busWrite_lat : (s.busWrite a v).2.lat = s.lat := by rw [State.busWrite_eq]
@[simp] theorem State.busWrite_cycles : (s.busWrite a v).2.cycles = s.cycles := by rw [State.busWrite_eq]
@[simp] theorem State.busWrite_queue : (s.busWrite a v).2.queue = s.queue := by rw [State.busWrite_eq]
@[simp] theorem State.busWrite_inputs : (s.busWrite a v).2.inputs = s.inputs := by rw [State.busWrite_eq]
@[simp] theorem State.busWrite_apuTicks : (s.busWrite a v).2.apuTicks = s.apuTicks := by rw [State.busWrite_eq]
@[simp] theorem State.busWrite_busLog : (s.busWrite a v).2.busLog = s.busLog := by rw [State.busWrite_eq]

/-- On the flat bus a write stores its byte and does nothing else (R56). -/
theorem State.busWrite_flat (h : s.params.bus = .flat) :
    s.busWrite a v = (none, { s with ram := s.ram.write a.toNat v }) := by
  unfold State.busWrite
  rw [h]

/-- Only a write to 0x4014 on the NES bus sets `pins.oam_dma` (R53, R56). -/
theorem State.busWrite_dma : (s.busWrite a v).1 =
    if s.params.bus = .nes ∧ a = 0x4014#16 then some v else none := by
  have key : a.toNat = 0x4014 ↔ a = 0x4014#16 := by
    constructor
    · intro h; exact BitVec.eq_of_toNat_eq h
    · intro h; subst h; rfl
  unfold State.busWrite
  cases hb : s.params.bus with
  | flat => simp
  | nes =>
    unfold State.nesWrite
    simp only [true_and, ← key]
    (repeat' split) <;> first | rfl | (exfalso; omega)

/-! ## The end of a cycle -/

/-- `BusClock` can change the PPU and the APU tick count (R45, R46). -/
theorem State.busClock_eq : (s.busClock).2 =
    { s with ppu := (s.busClock).2.ppu, apuTicks := (s.busClock).2.apuTicks } := by
  unfold State.busClock
  split <;> rfl

@[simp] theorem State.busClock_cpu : s.busClock.2.cpu = s.cpu := by rw [State.busClock_eq]
@[simp] theorem State.busClock_params : s.busClock.2.params = s.params := by rw [State.busClock_eq]
@[simp] theorem State.busClock_lat : s.busClock.2.lat = s.lat := by rw [State.busClock_eq]
@[simp] theorem State.busClock_cycles : s.busClock.2.cycles = s.cycles := by rw [State.busClock_eq]
@[simp] theorem State.busClock_queue : s.busClock.2.queue = s.queue := by rw [State.busClock_eq]
@[simp] theorem State.busClock_ram : s.busClock.2.ram = s.ram := by rw [State.busClock_eq]
@[simp] theorem State.busClock_cart : s.busClock.2.cart = s.cart := by rw [State.busClock_eq]
@[simp] theorem State.busClock_inputs : s.busClock.2.inputs = s.inputs := by rw [State.busClock_eq]
@[simp] theorem State.busClock_extCalls : s.busClock.2.extCalls = s.extCalls := by rw [State.busClock_eq]
@[simp] theorem State.busClock_busLog : s.busClock.2.busLog = s.busLog := by rw [State.busClock_eq]

variable (k : CycleKind) (d : Byte) (dma : Option Byte)

/-- The state `BusClock` runs on in `endCycle`: the cycle is counted. -/
def State.counted (s : State) : State := { s with cycles := s.cycles + 1#64 }

@[simp] theorem State.counted_cpu : s.counted.cpu = s.cpu := rfl
@[simp] theorem State.counted_params : s.counted.params = s.params := rfl
@[simp] theorem State.counted_ppu : s.counted.ppu = s.ppu := rfl
@[simp] theorem State.counted_cart : s.counted.cart = s.cart := rfl
@[simp] theorem State.counted_lat : s.counted.lat = s.lat := rfl
@[simp] theorem State.counted_inputs : s.counted.inputs = s.inputs := rfl
@[simp] theorem State.counted_cycles : s.counted.cycles = s.cycles + 1#64 := rfl
@[simp] theorem State.counted_apuTicks : s.counted.apuTicks = s.apuTicks := rfl

/-- `pins.nmi` and `pins.irq` of the cycle (R45 to R47). -/
def State.nmiPin (s : State) : Bool := s.counted.busClock.1
def State.irqPin (s : State) : Bool := levelAt s.inputs.irq (s.cycles + 1#64).toNat

@[simp] theorem State.endCycle_cpu : (s.endCycle k a d dma).cpu = s.cpu := by simp [State.endCycle]
@[simp] theorem State.endCycle_params : (s.endCycle k a d dma).params = s.params := by simp [State.endCycle]
@[simp] theorem State.endCycle_cycles : (s.endCycle k a d dma).cycles = s.cycles + 1#64 := by simp [State.endCycle]
@[simp] theorem State.endCycle_queue : (s.endCycle k a d dma).queue = s.queue := by simp [State.endCycle]
@[simp] theorem State.endCycle_ram : (s.endCycle k a d dma).ram = s.ram := by simp [State.endCycle]
@[simp] theorem State.endCycle_cart : (s.endCycle k a d dma).cart = s.cart := by simp [State.endCycle]
@[simp] theorem State.endCycle_inputs : (s.endCycle k a d dma).inputs = s.inputs := by simp [State.endCycle]
@[simp] theorem State.endCycle_extCalls : (s.endCycle k a d dma).extCalls = s.extCalls := by simp [State.endCycle]
@[simp] theorem State.endCycle_ppu : (s.endCycle k a d dma).ppu = s.counted.busClock.2.ppu := rfl
@[simp] theorem State.endCycle_apuTicks : (s.endCycle k a d dma).apuTicks = s.counted.busClock.2.apuTicks := rfl

/-- The poll at the end of the cycle (R183). -/
theorem State.endCycle_lat : (s.endCycle k a d dma).lat = s.lat.poll s.nmiPin s.irqPin s.cpu.p.i := by
  simp [State.endCycle, State.nmiPin, State.irqPin, State.counted]

/-- The record of the cycle (R32). -/
theorem State.endCycle_busLog : (s.endCycle k a d dma).busLog =
    ⟨k, ⟨a, d, s.irqPin, s.nmiPin, false, dma⟩⟩ :: s.busLog := by
  simp [State.endCycle, State.nmiPin, State.irqPin, State.counted]

@[simp] theorem State.endCycle_needReset : (s.endCycle k a d dma).lat.needReset = s.lat.needReset := by
  rw [State.endCycle_lat]
  rfl

/-- On the flat bus the PPU does not move (R46). -/
theorem State.busClock_flat (h : s.params.bus = .flat) :
    s.busClock = (levelAt s.inputs.nmi s.cycles.toNat, s) := by
  unfold State.busClock
  rw [h]

/-- On the NES bus the PPU moves three dots and the APU is ticked (R45). -/
theorem State.busClock_nes (h : s.params.bus = .nes) :
    s.busClock = ((((s.ppu.tick s.cart).tick s.cart).tick s.cart).nmiOut,
      { s with ppu := ((s.ppu.tick s.cart).tick s.cart).tick s.cart, apuTicks := s.apuTicks + 1 }) := by
  unfold State.busClock
  rw [h]

/-! ## A read, a write up to its DMA check, an idle cycle -/

theorem State.memRead_fst : (s.memRead a).1 = (s.busRead a).1 := rfl
theorem State.memRead_snd : (s.memRead a).2 = (s.busRead a).2.endCycle .read a (s.busRead a).1 none := rfl
theorem State.writeCycle_snd : (s.writeCycle a v).2 = (s.busWrite a v).2.endCycle .write a v (s.busWrite a v).1 := rfl
theorem State.writeCycle_fst : (s.writeCycle a v).1 = (s.busWrite a v).1 := rfl
theorem State.dummyRead_eq : s.dummyRead a = (s.memRead a).2 := rfl

@[simp] theorem State.memRead_cpu : (s.memRead a).2.cpu = s.cpu := by simp [State.memRead_snd]
@[simp] theorem State.memRead_params : (s.memRead a).2.params = s.params := by simp [State.memRead_snd]
@[simp] theorem State.memRead_cycles : (s.memRead a).2.cycles = s.cycles + 1#64 := by simp [State.memRead_snd]
@[simp] theorem State.memRead_queue : (s.memRead a).2.queue = s.queue := by simp [State.memRead_snd]
@[simp] theorem State.memRead_ram : (s.memRead a).2.ram = s.ram := by simp [State.memRead_snd]
@[simp] theorem State.memRead_cart : (s.memRead a).2.cart = s.cart := by simp [State.memRead_snd]
@[simp] theorem State.memRead_inputs : (s.memRead a).2.inputs = s.inputs := by simp [State.memRead_snd]
@[simp] theorem State.memRead_needReset : (s.memRead a).2.lat.needReset = s.lat.needReset := by
  simp [State.memRead_snd]

@[simp] theorem State.dummyRead_cpu : (s.dummyRead a).cpu = s.cpu := by simp [State.dummyRead_eq]
@[simp] theorem State.dummyRead_params : (s.dummyRead a).params = s.params := by simp [State.dummyRead_eq]
@[simp] theorem State.dummyRead_cycles : (s.dummyRead a).cycles = s.cycles + 1#64 := by simp [State.dummyRead_eq]
@[simp] theorem State.dummyRead_queue : (s.dummyRead a).queue = s.queue := by simp [State.dummyRead_eq]
@[simp] theorem State.dummyRead_ram : (s.dummyRead a).ram = s.ram := by simp [State.dummyRead_eq]
@[simp] theorem State.dummyRead_cart : (s.dummyRead a).cart = s.cart := by simp [State.dummyRead_eq]
@[simp] theorem State.dummyRead_inputs : (s.dummyRead a).inputs = s.inputs := by simp [State.dummyRead_eq]
@[simp] theorem State.dummyRead_needReset : (s.dummyRead a).lat.needReset = s.lat.needReset := by
  simp [State.dummyRead_eq]

@[simp] theorem State.writeCycle_cpu : (s.writeCycle a v).2.cpu = s.cpu := by simp [State.writeCycle_snd]
@[simp] theorem State.writeCycle_params : (s.writeCycle a v).2.params = s.params := by simp [State.writeCycle_snd]
@[simp] theorem State.writeCycle_cycles : (s.writeCycle a v).2.cycles = s.cycles + 1#64 := by
  simp [State.writeCycle_snd]
@[simp] theorem State.writeCycle_queue : (s.writeCycle a v).2.queue = s.queue := by simp [State.writeCycle_snd]
@[simp] theorem State.writeCycle_inputs : (s.writeCycle a v).2.inputs = s.inputs := by simp [State.writeCycle_snd]
@[simp] theorem State.writeCycle_ram : (s.writeCycle a v).2.ram = (s.busWrite a v).2.ram := by
  simp [State.writeCycle_snd]
@[simp] theorem State.writeCycle_cart : (s.writeCycle a v).2.cart = (s.busWrite a v).2.cart := by
  simp [State.writeCycle_snd]
@[simp] theorem State.writeCycle_needReset : (s.writeCycle a v).2.lat.needReset = s.lat.needReset := by
  simp [State.writeCycle_snd]

@[simp] theorem State.idleCycle_cpu : s.idleCycle.cpu = s.cpu := by simp [State.idleCycle]
@[simp] theorem State.idleCycle_params : s.idleCycle.params = s.params := by simp [State.idleCycle]
@[simp] theorem State.idleCycle_cycles : s.idleCycle.cycles = s.cycles + 1#64 := by simp [State.idleCycle]
@[simp] theorem State.idleCycle_queue : s.idleCycle.queue = s.queue := by simp [State.idleCycle]
@[simp] theorem State.idleCycle_ram : s.idleCycle.ram = s.ram := by simp [State.idleCycle]
@[simp] theorem State.idleCycle_cart : s.idleCycle.cart = s.cart := by simp [State.idleCycle]
@[simp] theorem State.idleCycle_inputs : s.idleCycle.inputs = s.inputs := by simp [State.idleCycle]
@[simp] theorem State.idleCycle_needReset : s.idleCycle.lat.needReset = s.lat.needReset := by
  simp [State.idleCycle]

/-! ## Relations that every cycle keeps -/

/-- A relation that every sequence of cycles keeps if each single one does. -/
structure CycleClosed (R : State → State → Prop) : Prop where
  refl  : ∀ s, R s s
  trans : ∀ s t u, R s t → R t u → R s u
  read  : ∀ s a, R s (s.memRead a).2
  write : ∀ s a v, R s (s.writeCycle a v).2
  idle  : ∀ s, R s s.idleCycle

theorem CycleClosed.dmaCopy {R : State → State → Prop} (h : CycleClosed R) (page : Byte) (n : Nat) (i : Byte) :
    ∀ s, R s (State.dmaCopy page n i s) := by
  induction n generalizing i with
  | zero => exact h.refl
  | succ n ih =>
    intro s
    exact h.trans _ _ _ (h.trans _ _ _ (h.read s _) (h.write _ _ _)) (ih (i + 1#8) _)

theorem CycleClosed.runDma {R : State → State → Prop} (h : CycleClosed R) (page : Byte) : R s (s.runDma page) := by
  unfold State.runDma
  split
  · exact h.trans _ _ _ (h.idle s) (h.dmaCopy page _ _ _)
  · exact h.dmaCopy page _ _ _

/-- A write with the DMA it may start. -/
theorem CycleClosed.memWrite {R : State → State → Prop} (h : CycleClosed R) : R s (s.memWrite a v) := by
  have hw := h.write s a v
  unfold State.memWrite
  split
  · next e => rwa [e] at hw
  · next e => rw [e] at hw; exact h.trans _ _ _ hw (h.runDma _ _)

/-- A field that no cycle changes. -/
theorem cycleClosed_field {α : Type} (f : State → α) (hr : ∀ s a, f (s.memRead a).2 = f s)
    (hw : ∀ s a v, f (s.writeCycle a v).2 = f s) (hi : ∀ s, f (s.idleCycle) = f s) :
    CycleClosed (fun s t => f t = f s) :=
  ⟨fun _ => rfl, fun _ _ _ h k => k.trans h, hr, hw, hi⟩

@[simp] theorem State.memWrite_cpu : (s.memWrite a v).cpu = s.cpu :=
  CycleClosed.memWrite s a v (cycleClosed_field State.cpu (by simp) (by simp) (by simp))
@[simp] theorem State.memWrite_params : (s.memWrite a v).params = s.params :=
  CycleClosed.memWrite s a v (cycleClosed_field State.params (by simp) (by simp) (by simp))
@[simp] theorem State.memWrite_queue : (s.memWrite a v).queue = s.queue :=
  CycleClosed.memWrite s a v (cycleClosed_field State.queue (by simp) (by simp) (by simp))
@[simp] theorem State.memWrite_inputs : (s.memWrite a v).inputs = s.inputs :=
  CycleClosed.memWrite s a v (cycleClosed_field State.inputs (by simp) (by simp) (by simp))
@[simp] theorem State.memWrite_needReset : (s.memWrite a v).lat.needReset = s.lat.needReset :=
  CycleClosed.memWrite s a v (cycleClosed_field (fun s => s.lat.needReset) (by simp) (by simp) (by simp))

/-- On the flat bus a write is one cycle: there is no DMA (R46, R56). -/
theorem State.memWrite_flat (h : s.params.bus = .flat) : s.memWrite a v =
    { s with ram := s.ram.write a.toNat v }.endCycle .write a v none := by
  unfold State.memWrite State.writeCycle
  rw [State.busWrite_flat s a v h]

/-- A write that does not hit the DMA trigger is one cycle (R44). -/
theorem State.memWrite_single (h : ¬(s.params.bus = .nes ∧ a = 0x4014#16)) :
    s.memWrite a v = (s.writeCycle a v).2 := by
  have e : (s.writeCycle a v).1 = none := by rw [State.writeCycle_fst, State.busWrite_dma, if_neg h]
  unfold State.memWrite
  split
  · next x => rw [x]
  · next x => rw [x] at e; simp at e

/-- A write to the DMA trigger is one cycle and the DMA (R44, R195). -/
theorem State.memWrite_dma (h : s.params.bus = .nes) :
    s.memWrite 0x4014#16 v = ((s.writeCycle 0x4014#16 v).2).runDma v := by
  have e : (s.writeCycle 0x4014#16 v).1 = some v := by
    rw [State.writeCycle_fst, State.busWrite_dma, if_pos ⟨h, rfl⟩]
  unfold State.memWrite
  split
  · next x => rw [x] at e; simp at e
  · next x => rw [x] at e; simp only [Option.some.injEq] at e; rw [x, e]

/-! ## Fetch and the stack -/

theorem State.fetch_eq : s.fetch = ((s.memRead s.cpu.pc).1, (s.memRead s.cpu.pc).2.setPc (s.cpu.pc + 1#16)) := by
  have h : s.fetch = ((s.memRead s.cpu.pc).1,
    (s.memRead s.cpu.pc).2.setPc ((s.memRead s.cpu.pc).2.cpu.pc + 1#16)) := rfl
  rw [h, State.memRead_cpu]
theorem State.fetch_fst : s.fetch.1 = (s.memRead s.cpu.pc).1 := rfl
@[simp] theorem State.fetch_cpu : s.fetch.2.cpu = { s.cpu with pc := s.cpu.pc + 1#16 } := by
  simp [State.fetch_eq, State.setPc]
@[simp] theorem State.fetch_params : s.fetch.2.params = s.params := by simp [State.fetch_eq]
@[simp] theorem State.fetch_ram : s.fetch.2.ram = s.ram := by simp [State.fetch_eq]
@[simp] theorem State.fetch_cart : s.fetch.2.cart = s.cart := by simp [State.fetch_eq]
@[simp] theorem State.fetch_queue : s.fetch.2.queue = s.queue := by simp [State.fetch_eq]
@[simp] theorem State.fetch_cycles : s.fetch.2.cycles = s.cycles + 1#64 := by simp [State.fetch_eq]
@[simp] theorem State.fetch_inputs : s.fetch.2.inputs = s.inputs := by simp [State.fetch_eq]
@[simp] theorem State.fetch_needReset : s.fetch.2.lat.needReset = s.lat.needReset := by simp [State.fetch_eq]

theorem State.push_eq : s.push v = (s.memWrite s.stackAddr v).setS (s.cpu.s - 1#8) := by
  have h : s.push v = (s.memWrite s.stackAddr v).setS ((s.memWrite s.stackAddr v).cpu.s - 1#8) := rfl
  rw [h, State.memWrite_cpu]
@[simp] theorem State.push_cpu : (s.push v).cpu = { s.cpu with s := s.cpu.s - 1#8 } := by
  simp [State.push_eq, State.setS]
@[simp] theorem State.push_params : (s.push v).params = s.params := by simp [State.push_eq]

theorem State.pull_eq : s.pull = ((s.setS (s.cpu.s + 1#8)).memRead (joinBytes 0x01#8 (s.cpu.s + 1#8))) := rfl
@[simp] theorem State.pull_cpu : s.pull.2.cpu = { s.cpu with s := s.cpu.s + 1#8 } := by
  rw [State.pull_eq, State.memRead_cpu]; rfl
@[simp] theorem State.pull_params : s.pull.2.params = s.params := by simp [State.pull_eq]
@[simp] theorem State.pull_ram : s.pull.2.ram = s.ram := by simp [State.pull_eq]
@[simp] theorem State.pull_cart : s.pull.2.cart = s.cart := by simp [State.pull_eq]

/-! ## The canonical form -/

/-- What `State.wf` says of the parts a cycle can change. -/
theorem State.wf_iff : s.wf = true ↔ s.params.wf = true ∧ queueWf s.queue = true ∧
    Memory.wf (Bus.ramSize s.params.bus) s.ram = true ∧ s.cart.wf = true ∧ s.ppu.wf = true := by
  simp [State.wf, and_assoc]

theorem Cart.writePrg_wf {c : Cart} (h : c.wf = true) (n : Nat) (v : Byte) : (c.writePrg n v).wf = true := by
  simp only [Cart.wf, Bool.and_eq_true] at h
  unfold Cart.writePrg
  split
  · simp only [Cart.wf, Bool.and_eq_true]
    exact ⟨⟨h.1.1, Memory.write_wf v h.1.2 (by omega)⟩, h.2⟩
  · simp only [Cart.wf, Bool.and_eq_true]
    exact h

theorem State.busRead_wf {s : State} (h : s.wf = true) (a : Word) : (s.busRead a).2.wf = true := by
  rw [State.wf_iff] at *
  refine ⟨by simp [h], by simp [h], by simp [h], by simp [h], ?_⟩
  unfold State.busRead State.nesRead
  dsimp only
  (repeat' split) <;> first | exact h.2.2.2.2 | exact Ppu.readRegister_wf h.2.2.2.2 _ _

theorem State.busWrite_wf {s : State} (h : s.wf = true) (a : Word) (v : Byte) : (s.busWrite a v).2.wf = true := by
  have ha := a.isLt
  rw [State.wf_iff] at *
  obtain ⟨h1, h2, h3, h4, h5⟩ := h
  refine ⟨by simp [h1], by simp [h2], ?_, ?_, ?_⟩
  · rw [State.busWrite_params]
    unfold State.busWrite
    cases hb : s.params.bus with
    | flat => rw [hb] at h3; exact Memory.write_wf v h3 ha
    | nes =>
      rw [hb] at h3
      have hm : a.toNat % 0x800 < Bus.ramSize .nes := by
        have e : Bus.ramSize .nes = 0x800 := rfl
        omega
      unfold State.nesWrite
      dsimp only
      (repeat' split) <;> first | exact h3 | exact Memory.write_wf v h3 hm
  · unfold State.busWrite State.nesWrite
    dsimp only
    (repeat' split) <;> first | exact h4 | exact Cart.writePrg_wf h4 _ _
  · unfold State.busWrite State.nesWrite
    dsimp only
    (repeat' split) <;> first | exact h5 | exact Ppu.writeRegister_wf h5 _ _ _

theorem State.endCycle_wf {s : State} (h : s.wf = true) (k : CycleKind) (a : Word) (d : Byte) (dma : Option Byte) :
    (s.endCycle k a d dma).wf = true := by
  rw [State.wf_iff] at *
  refine ⟨by simp [h], by simp [h], by simp [h], by simp [h], ?_⟩
  rw [State.endCycle_ppu]
  cases hb : s.params.bus with
  | flat => rw [State.busClock_flat s.counted hb]; exact h.2.2.2.2
  | nes =>
    rw [State.busClock_nes s.counted hb]
    exact Ppu.tick_wf (Ppu.tick_wf (Ppu.tick_wf h.2.2.2.2 _) _) _

/-- Every cycle keeps the state well formed. -/
theorem cycleClosed_wf : CycleClosed (fun s t => s.wf = true → t.wf = true) where
  refl := fun _ h => h
  trans := fun _ _ _ h k g => k (h g)
  read := fun _ a h => State.endCycle_wf (State.busRead_wf h a) _ _ _ _
  write := fun _ a v h => State.endCycle_wf (State.busWrite_wf h a v) _ _ _ _
  idle := fun _ h => State.endCycle_wf h _ _ _ _

end Sys2Proof.Machine
end

