-- ==== Sys2Proof/Laws/Exec.lean ====
section
/-! SUPPORT. What an instruction can do, said once: every instruction runs one of the shared bus sequences
(`exec_runs`), and a relation that reads, writes and register changes keep is kept by every
instruction and every step (`Closed.exec`, `Closed.step`). -/

namespace Sys2Proof.Machine

/-! ## The sequences an instruction runs -/

/-- A function of the state that changes CPU registers only. -/
def RegOnly (f : State → State) : Prop := ∀ s, f s = { s with cpu := (f s).cpu }

/-- `Runs i s t`: the instruction `i` runs one of the shared sequences from `s` and ends in `t`. -/
inductive Runs : Instr → State → State → Prop
  | implied {i : Instr} {op : State → State} {s : State} (h : i.accessClass = .implied) (hop : RegOnly op) :
      Runs i s (s.runImplied op)
  | imm {i : Instr} {op : Byte → State → State} {s : State} (h : i.accessClass = .read) (hm : i.mode = .imm)
      (hop : ∀ v, RegOnly (op v)) : Runs i s (s.runImm op)
  | read {i : Instr} {op : Byte → State → State} {m : MemMode} {s : State} (h : i.accessClass = .read)
      (hm : memModeOf i.mode = some m) (hop : ∀ v, RegOnly (op v)) : Runs i s (s.runRead m op)
  | write {i : Instr} {val : State → Byte} {m : MemMode} {s : State} (h : i.accessClass = .write)
      (hm : memModeOf i.mode = some m) (hn : ∀ c, highAndRegister i.mnemonic c = none) : Runs i s (s.runWrite m val)
  | highAnd {i : Instr} {pre : State → State} {reg : State → Byte} {m : MemMode} {s : State}
      (h : i.accessClass = .write) (hm : memModeOf i.mode = some m) (hpre : RegOnly pre)
      (hreg : ∀ u, highAndRegister i.mnemonic u.cpu = some (reg (pre u))) : Runs i s (s.runHighAnd m pre reg)
  | rmw {i : Instr} {op : Byte → State → Byte × State} {m : MemMode} {s : State} (h : i.accessClass = .rmw)
      (hm : memModeOf i.mode = some m) (hop : ∀ v, RegOnly (fun s => (op v s).2)) : Runs i s (s.runRmw m op)
  | branch {i : Instr} {cond : Flags → Bool} {s : State} (h : i.accessClass = .branch)
      (hc : ∀ p, cond p = taken i.mnemonic p) : Runs i s (s.runBranch cond)
  | jmpAbs {s : State} : Runs .jmpAbs s s.jumpAbs
  | jmpInd {s : State} : Runs .jmpInd s s.jumpInd
  | jsr {s : State} : Runs .jsr s s.jumpSub
  | rts {s : State} : Runs .rts s s.returnSub
  | rti {s : State} : Runs .rti s s.returnFromInterrupt
  | brk {s : State} : Runs .brk s s.softwareInterrupt
  | pha {s : State} : Runs .pha s s.pushA
  | php {s : State} : Runs .php s s.pushP
  | pla {s : State} : Runs .pla s s.pullA
  | plp {s : State} : Runs .plp s s.pullP

/-! Every instruction completes, by one of the shared sequences (R180): class by class. -/

theorem exec_runs_implied {i : Instr} (h : i.accessClass = .implied) (s : State) : ∃ t, exec i s = .next t ∧ Runs i s t := by
  cases i <;> first
    | (cases h; done)
    | exact ⟨_, rfl, .implied rfl (fun _ => rfl)⟩

theorem exec_runs_imm {i : Instr} (h : i.accessClass = .read) (hm : i.mode = .imm) (s : State) :
    ∃ t, exec i s = .next t ∧ Runs i s t := by
  cases i <;> first
    | (cases h; done)
    | (cases hm; done)
    | exact ⟨_, rfl, .imm rfl rfl (fun _ _ => rfl)⟩

theorem exec_runs_read {i : Instr} (h : i.accessClass = .read) (hm : i.mode ≠ .imm) (s : State) :
    ∃ t, exec i s = .next t ∧ Runs i s t := by
  cases i <;> first
    | (cases h; done)
    | exact absurd rfl hm
    | exact ⟨_, rfl, .read rfl rfl (fun _ _ => rfl)⟩

theorem exec_runs_write {i : Instr} (h : i.accessClass = .write) (s : State) :
    ∃ t, exec i s = .next t ∧ Runs i s t := by
  cases i
  case shaIzy => exact ⟨_, rfl, .highAnd rfl rfl (fun _ => rfl) (fun _ => rfl)⟩
  case shaAby => exact ⟨_, rfl, .highAnd rfl rfl (fun _ => rfl) (fun _ => rfl)⟩
  case shxAby => exact ⟨_, rfl, .highAnd rfl rfl (fun _ => rfl) (fun _ => rfl)⟩
  case shyAbx => exact ⟨_, rfl, .highAnd rfl rfl (fun _ => rfl) (fun _ => rfl)⟩
  case tasAby => exact ⟨_, rfl, .highAnd rfl rfl (fun _ => rfl) (fun _ => rfl)⟩
  all_goals first
    | (cases h; done)
    | exact ⟨_, rfl, .write rfl rfl (fun _ => rfl)⟩

theorem exec_runs_rmw {i : Instr} (h : i.accessClass = .rmw) (s : State) : ∃ t, exec i s = .next t ∧ Runs i s t := by
  cases i <;> first
    | (cases h; done)
    | exact ⟨_, rfl, .rmw rfl rfl (fun _ _ => rfl)⟩

theorem exec_runs_branch {i : Instr} (h : i.accessClass = .branch) (s : State) : ∃ t, exec i s = .next t ∧ Runs i s t := by
  cases i <;> first
    | (cases h; done)
    | exact ⟨_, rfl, .branch rfl (fun _ => rfl)⟩

theorem exec_runs_jump {i : Instr} (h : i.accessClass = .jump) (s : State) :
    ∃ t, exec i s = .next t ∧ Runs i s t := by
  cases i <;> first
    | (cases h; done)
    | exact ⟨_, rfl, .jmpAbs⟩
    | exact ⟨_, rfl, .jmpInd⟩

theorem exec_runs_stack {i : Instr} (h : i.accessClass = .stack) (s : State) :
    ∃ t, exec i s = .next t ∧ Runs i s t := by
  cases i <;> first
    | (cases h; done)
    | exact ⟨_, rfl, .jsr⟩
    | exact ⟨_, rfl, .rts⟩
    | exact ⟨_, rfl, .rti⟩
    | exact ⟨_, rfl, .brk⟩
    | exact ⟨_, rfl, .pha⟩
    | exact ⟨_, rfl, .php⟩
    | exact ⟨_, rfl, .pla⟩
    | exact ⟨_, rfl, .plp⟩

/-- Every instruction completes, by one of the shared sequences (R180). -/
theorem exec_runs (i : Instr) (s : State) : ∃ t, exec i s = .next t ∧ Runs i s t := by
  rcases h : i.accessClass with _ | _ | _ | _ | _ | _ | _
  · by_cases hm : i.mode = .imm
    · exact exec_runs_imm h hm s
    · exact exec_runs_read h hm s
  · exact exec_runs_write h s
  · exact exec_runs_rmw h s
  · exact exec_runs_implied h s
  · exact exec_runs_branch h s
  · exact exec_runs_jump h s
  · exact exec_runs_stack h s

/-- The sequence of an instruction whose next state is known. -/
theorem runs_of_exec {i : Instr} {s t : State} (h : exec i s = .next t) : Runs i s t := by
  obtain ⟨u, hu, hr⟩ := exec_runs i s
  rw [h] at hu
  cases hu
  exact hr

/-! ## Relations that reads and register changes keep -/

/-- A relation kept by bus reads and by changes of CPU registers. -/
structure ReadClosed (R : State → State → Prop) : Prop where
  refl  : ∀ s, R s s
  trans : ∀ s t u, R s t → R t u → R s u
  read  : ∀ s a, R s (s.memRead a).2
  regs  : ∀ s c, R s { s with cpu := c }

namespace ReadClosed

variable {R : State → State → Prop} (h : ReadClosed R) {s u : State}
include h

theorem regOnly {f : State → State} (hf : RegOnly f) (k : R s u) : R s (f u) := by
  rw [hf u]
  exact h.trans _ _ _ k (h.regs u _)

theorem setPc (v : Word) (k : R s u) : R s (u.setPc v) := h.trans _ _ _ k (h.regs u _)

theorem setP (p : Flags) (k : R s u) : R s (u.setP p) := h.trans _ _ _ k (h.regs u _)

theorem setS (v : Byte) (k : R s u) : R s (u.setS v) := h.trans _ _ _ k (h.regs u _)

theorem setI (b : Bool) (k : R s u) : R s (u.setI b) := h.trans _ _ _ k (h.regs u _)

theorem memRead (a : Word) (k : R s u) : R s (u.memRead a).2 := h.trans _ _ _ k (h.read u a)

theorem dummyRead (a : Word) (k : R s u) : R s (u.dummyRead a) := h.trans _ _ _ k (h.read u a)

theorem fetch (k : R s u) : R s u.fetch.2 := by
  rw [State.fetch_eq]
  exact h.setPc _ (h.memRead _ k)

theorem fetchPair (k : R s u) : R s u.fetchPair.2.2 := h.fetch (h.fetch k)

theorem zpPointer (q : Byte) (k : R s u) : R s (u.zpPointer q).2.2 := h.memRead _ (h.memRead _ k)

theorem pull (k : R s u) : R s u.pull.2 := by
  rw [State.pull_eq]
  exact h.memRead _ (h.setS _ k)

theorem indexed (cls : MemClass) (hi lo idx : Byte) (k : R s u) : R s (u.indexed cls hi lo idx).2 := by
  unfold State.indexed
  dsimp only
  split
  · exact k
  · exact h.dummyRead _ k

theorem resolve (m : MemMode) (cls : MemClass) (k : R s u) : R s (u.resolve m cls).2 := by
  cases m
  · exact h.fetch k
  · exact h.dummyRead _ (h.fetch k)
  · exact h.dummyRead _ (h.fetch k)
  · exact h.fetchPair k
  · exact h.indexed _ _ _ _ (h.fetchPair k)
  · exact h.indexed _ _ _ _ (h.fetchPair k)
  · exact h.zpPointer _ (h.dummyRead _ (h.fetch k))
  · exact h.indexed _ _ _ _ (h.zpPointer _ (h.fetch k))

theorem runImplied {op : State → State} (hop : RegOnly op) (k : R s u) : R s (u.runImplied op) :=
  h.regOnly hop (h.dummyRead _ k)

theorem runImm {op : Byte → State → State} (hop : ∀ v, RegOnly (op v)) (k : R s u) : R s (u.runImm op) :=
  h.regOnly (hop _) (h.fetch k)

theorem runRead {m : MemMode} {op : Byte → State → State} (hop : ∀ v, RegOnly (op v)) (k : R s u) :
    R s (u.runRead m op) :=
  h.regOnly (hop _) (h.memRead _ (h.resolve m .read k))

theorem runBranch (cond : Flags → Bool) (k : R s u) : R s (u.runBranch cond) := by
  unfold State.runBranch
  dsimp only
  split
  · refine h.setPc _ ?_
    split
    · exact h.dummyRead _ (h.fetch k)
    · exact h.dummyRead _ (h.dummyRead _ (h.fetch k))
  · exact h.fetch k

theorem jumpAbs (k : R s u) : R s u.jumpAbs := by
  unfold State.jumpAbs
  dsimp only
  exact h.setPc _ (h.fetchPair k)

theorem jumpInd (k : R s u) : R s u.jumpInd := by
  unfold State.jumpInd
  dsimp only
  exact h.setPc _ (h.memRead _ (h.memRead _ (h.fetchPair k)))

theorem pullByte (k : R s u) : R s u.pullByte.2 := by
  unfold State.pullByte
  exact h.pull (h.dummyRead _ (h.dummyRead _ k))

theorem pullA (k : R s u) : R s u.pullA := by
  unfold State.pullA
  dsimp only
  exact h.regOnly (f := fun s => s.loadA _) (fun _ => rfl) (h.pullByte k)

theorem pullP (k : R s u) : R s u.pullP := by
  unfold State.pullP
  dsimp only
  exact h.setP _ (h.pullByte k)

theorem returnSub (k : R s u) : R s u.returnSub := by
  unfold State.returnSub
  dsimp only
  exact h.setPc _ (h.dummyRead _ (h.setPc _ (h.pull (h.pull (h.dummyRead _ (h.dummyRead _ k))))))

theorem returnFromInterrupt (k : R s u) : R s u.returnFromInterrupt := by
  unfold State.returnFromInterrupt
  dsimp only
  exact h.setPc _ (h.pull (h.pull (h.setP _ (h.pull (h.dummyRead _ (h.dummyRead _ k))))))

theorem loadPc (vec : Word) (k : R s u) : R s (u.loadPc vec) := by
  unfold State.loadPc
  dsimp only
  exact h.setPc _ (h.memRead _ (h.memRead _ k))

theorem peekStack (k : R s u) : R s u.peekStack := by
  unfold State.peekStack
  exact h.setS _ (h.dummyRead _ k)

/-- An instruction that neither writes memory nor pushes (R73). -/
theorem exec {i : Instr} {t : State} (he : Machine.exec i s = .next t) (hw : i.accessClass ≠ .write)
    (hm : i.accessClass ≠ .rmw) (hp : i ≠ .jsr ∧ i ≠ .brk ∧ i ≠ .pha ∧ i ≠ .php) : R s t := by
  have k := h.refl s
  cases runs_of_exec he with
  | implied _ hop => exact h.runImplied hop k
  | imm _ _ hop => exact h.runImm hop k
  | read _ _ hop => exact h.runRead hop k
  | write e => exact absurd e hw
  | highAnd e => exact absurd e hw
  | rmw e => exact absurd e hm
  | branch => exact h.runBranch _ k
  | jmpAbs => exact h.jumpAbs k
  | jmpInd => exact h.jumpInd k
  | jsr => exact absurd rfl hp.1
  | rts => exact h.returnSub k
  | rti => exact h.returnFromInterrupt k
  | brk => exact absurd rfl hp.2.1
  | pha => exact absurd rfl hp.2.2.1
  | php => exact absurd rfl hp.2.2.2
  | pla => exact h.pullA k
  | plp => exact h.pullP k

end ReadClosed

/-! ## Relations that reads, writes and register changes keep -/

/-- A relation kept by everything an instruction does. -/
structure Closed (R : State → State → Prop) : Prop extends ReadClosed R where
  write   : ∀ s a v, R s (s.memWrite a v)
  service : ∀ s : State, R s { s with lat := { s.lat with needNmi := false } }

/-- A relation that every single cycle keeps, together with register changes and the servicing of an
NMI, is kept by everything an instruction does. -/
theorem Closed.ofCycles {R : State → State → Prop} (h : CycleClosed R) (hr : ∀ s c, R s { s with cpu := c })
    (hn : ∀ s : State, R s { s with lat := { s.lat with needNmi := false } }) : Closed R :=
  ⟨⟨h.refl, h.trans, h.read, hr⟩, fun s a v => h.memWrite s a v, hn⟩

namespace Closed

variable {R : State → State → Prop} (h : Closed R) {s u : State}
include h

theorem memWrite (a : Word) (v : Byte) (k : R s u) : R s (u.memWrite a v) := h.trans _ _ _ k (h.write u a v)

theorem push (v : Byte) (k : R s u) : R s (u.push v) := by
  rw [State.push_eq]
  exact h.setS _ (h.memWrite _ _ k)

theorem selectVector (d : Word) (k : R s u) : R s (u.selectVector d).2 := by
  unfold State.selectVector
  split
  · exact h.trans _ _ _ k (h.service u)
  · exact k

theorem enterInterrupt (b : Bool) (k : R s u) : R s (u.enterInterrupt b) := by
  unfold State.enterInterrupt
  dsimp only
  exact h.loadPc _ (h.setI _ (h.selectVector _ (h.push _ (h.push _ (h.push _ k)))))

theorem interruptSequence (k : R s u) : R s u.interruptSequence := by
  unfold State.interruptSequence
  exact h.enterInterrupt _ (h.dummyRead _ (h.dummyRead _ k))

theorem softwareInterrupt (k : R s u) : R s u.softwareInterrupt := by
  unfold State.softwareInterrupt
  exact h.enterInterrupt _ (h.fetch k)

theorem jumpSub (k : R s u) : R s u.jumpSub := by
  unfold State.jumpSub
  dsimp only
  exact h.setPc _ (h.memRead _ (h.push _ (h.push _ (h.dummyRead _ (h.fetch k)))))

theorem runWrite (m : MemMode) (val : State → Byte) (k : R s u) : R s (u.runWrite m val) := by
  unfold State.runWrite
  dsimp only
  exact h.memWrite _ _ (h.resolve m .write k)

theorem runHighAnd (m : MemMode) {pre : State → State} (reg : State → Byte) (hpre : RegOnly pre) (k : R s u) :
    R s (u.runHighAnd m pre reg) := by
  unfold State.runHighAnd
  dsimp only
  exact h.memWrite _ _ (h.regOnly hpre (h.resolve m .write k))

theorem runRmw (m : MemMode) {op : Byte → State → Byte × State} (hop : ∀ v, RegOnly (fun s => (op v s).2))
    (k : R s u) : R s (u.runRmw m op) := by
  unfold State.runRmw
  dsimp only
  exact h.memWrite _ _ (h.regOnly (hop _) (h.memWrite _ _ (h.memRead _ (h.resolve m .rmw k))))

theorem pushA (k : R s u) : R s u.pushA := by
  unfold State.pushA
  exact h.push _ (h.dummyRead _ k)

theorem pushP (k : R s u) : R s u.pushP := by
  unfold State.pushP
  exact h.push _ (h.dummyRead _ k)

/-- Every instruction keeps the relation. -/
theorem exec {i : Instr} {t : State} (he : Machine.exec i s = .next t) : R s t := by
  have k := h.refl s
  cases runs_of_exec he with
  | implied _ hop => exact h.runImplied hop k
  | imm _ _ hop => exact h.runImm hop k
  | read _ _ hop => exact h.runRead hop k
  | write => exact h.runWrite _ _ k
  | highAnd _ _ hpre => exact h.runHighAnd _ _ hpre k
  | rmw _ _ hop => exact h.runRmw _ hop k
  | branch => exact h.runBranch _ k
  | jmpAbs => exact h.jumpAbs k
  | jmpInd => exact h.jumpInd k
  | jsr => exact h.jumpSub k
  | rts => exact h.returnSub k
  | rti => exact h.returnFromInterrupt k
  | brk => exact h.softwareInterrupt k
  | pha => exact h.pushA k
  | php => exact h.pushP k
  | pla => exact h.pullA k
  | plp => exact h.pullP k

theorem resetSequence (hl : ∀ s : State, R s { s with lat := { s.lat with needReset := false } }) (k : R s u) :
    R s u.resetSequence := by
  unfold State.resetSequence
  exact h.loadPc _ (h.setI _ (h.peekStack (h.peekStack (h.peekStack (h.dummyRead _ (h.dummyRead _
    (h.trans _ _ _ k (hl u))))))))

end Closed

/-- One step, said once: the queue is drained, then a reset sequence, an interrupt sequence or one
instruction runs (R185). -/
theorem step_cases {s t : State} (he : step s = .next t) : ∃ u, s.handleEvents = some u ∧
    (t = u.resetSequence ∨ t = u.interruptSequence ∨ exec (decodeOpcode u.fetch.1) u.fetch.2 = .next t) := by
  unfold step at he
  split at he
  · cases he
  · next u hu =>
    refine ⟨u, hu, ?_⟩
    split at he
    · cases he; exact .inl rfl
    · split at he
      · cases he; exact .inr (.inl rfl)
      · exact .inr (.inr he)

/-- A relation kept by instructions, by draining the queue and by dropping `need_reset` is kept by
every step. -/
theorem Closed.step {R : State → State → Prop} (h : Closed R)
    (hd : ∀ s u : State, s.handleEvents = some u → R s u)
    (hl : ∀ s : State, R s { s with lat := { s.lat with needReset := false } }) {s t : State}
    (he : Machine.step s = .next t) : R s t := by
  obtain ⟨u, hu, ht | ht | ht⟩ := step_cases he
  · subst ht
    exact h.resetSequence hl (hd s u hu)
  · subst ht
    exact h.interruptSequence (hd s u hu)
  · exact h.trans _ _ _ (h.fetch (hd s u hu)) (h.exec ht)

/-! ## Draining the queue -/

/-- Draining a queue changes the queue and `need_reset` only (R193, R194). -/
theorem drainEvents_eq {now : Tick} {q : List Event} {l : Latches} {q' : List Event} {l' : Latches}
    (h : drainEvents now q l = some (q', l')) : l' = { l with needReset := l'.needReset } := by
  induction q generalizing l with
  | nil => cases h
  | cons e q ih =>
    unfold drainEvents at h
    split at h
    · rw [ih h]
      unfold Latches.execEvent
      split <;> rfl
    · cases h; rfl

/-- What draining leaves of a well-formed queue is well formed. -/
theorem drainEvents_wf {now : Tick} {q : List Event} {l : Latches} {q' : List Event} {l' : Latches}
    (h : drainEvents now q l = some (q', l')) (hq : queueWf q = true) : queueWf q' = true := by
  induction q generalizing l with
  | nil => cases h
  | cons e q ih =>
    unfold drainEvents at h
    split at h
    · next hdue =>
      cases q with
      | nil => cases h
      | cons f q =>
        simp only [queueWf, Bool.and_eq_true] at hq
        exact ih h hq.2
    · cases h; exact hq

/-- A well-formed queue is never found empty (R193). -/
theorem drainEvents_isSome {now : Tick} {q : List Event} (l : Latches) (hq : queueWf q = true) :
    ∃ r, drainEvents now q l = some r := by
  induction q generalizing l with
  | nil => simp [queueWf] at hq
  | cons e q ih =>
    unfold drainEvents
    split
    · next hdue =>
      cases q with
      | nil =>
        simp only [queueWf, beq_iff_eq] at hq
        subst hq
        simp [Event.due, Event.atEnd] at hdue
      | cons f q =>
        simp only [queueWf, Bool.and_eq_true] at hq
        exact ih _ hq.2
    · exact ⟨_, rfl⟩

theorem State.handleEvents_eq {s u : State} (h : s.handleEvents = some u) :
    u = { s with queue := u.queue, lat := { s.lat with needReset := u.lat.needReset } } := by
  unfold State.handleEvents at h
  split at h
  · cases h
  · next q l e =>
    cases h
    have k := drainEvents_eq e
    simp only
    rw [← k]

theorem State.handleEvents_wf {s u : State} (h : s.handleEvents = some u) (hq : queueWf s.queue = true) :
    queueWf u.queue = true := by
  unfold State.handleEvents at h
  split at h
  · cases h
  · next e =>
    cases h
    exact drainEvents_wf e hq

theorem State.handleEvents_isSome {s : State} (hq : queueWf s.queue = true) : ∃ u, s.handleEvents = some u := by
  obtain ⟨r, hr⟩ := drainEvents_isSome (now := s.cycles) s.lat hq
  unfold State.handleEvents
  rw [hr]
  exact ⟨_, rfl⟩

end Sys2Proof.Machine
end

