-- ==== Sys2Proof/Laws/Clock.lean ====
section
/-! SUPPORT. What every cycle adds to the log and to the clocks, carried over instructions and steps. -/

namespace Sys2Proof.Machine

/-- The cycles from `s` to `t`: they are logged, counted, and move the devices of the NES bus. -/
def Clocked (s t : State) : Prop := ∃ new : List BusCycle,
  t.busLog = new ++ s.busLog ∧ t.cycles = s.cycles + BitVec.ofNat 64 new.length ∧ t.params = s.params ∧
    (s.params.bus = .nes → t.apuTicks = s.apuTicks + new.length ∧
      t.ppu.framePos = (s.ppu.framePos + 3 * new.length) % dotsPerFrame) ∧
    (s.params.bus = .flat → t.apuTicks = s.apuTicks ∧ t.ppu = s.ppu ∧ t.cart = s.cart ∧ t.extCalls = s.extCalls)

theorem Clocked.of_eq {s t : State} (h1 : t.busLog = s.busLog) (h2 : t.cycles = s.cycles) (h3 : t.params = s.params)
    (h4 : t.apuTicks = s.apuTicks) (h5 : t.ppu = s.ppu) (h6 : t.cart = s.cart) (h7 : t.extCalls = s.extCalls) :
    Clocked s t := by
  refine ⟨[], by simp [h1], by simp [h2], h3, fun _ => ⟨by simp [h4], ?_⟩, fun _ => ⟨h4, h5, h6, h7⟩⟩
  rw [h5]
  simp [Nat.mod_eq_of_lt (Ppu.framePos_lt s.ppu)]

theorem Clocked.trans {s t u : State} (h : Clocked s t) (k : Clocked t u) : Clocked s u := by
  obtain ⟨l, h1, h2, h3, h4, h5⟩ := h
  obtain ⟨m, k1, k2, k3, k4, k5⟩ := k
  refine ⟨m ++ l, by simp [h1, k1], ?_, by simp [h3, k3], fun b => ?_, fun b => ?_⟩
  · rw [k2, h2, List.length_append, Nat.add_comm m.length, BitVec.ofNat_add, BitVec.add_assoc]
  · obtain ⟨a1, a2⟩ := h4 b
    obtain ⟨b1, b2⟩ := k4 (by rw [h3]; exact b)
    refine ⟨by rw [b1, a1, List.length_append]; omega, ?_⟩
    rw [b2, a2, List.length_append]
    unfold dotsPerFrame
    omega
  · obtain ⟨a1, a2, a3, a4⟩ := h5 b
    obtain ⟨b1, b2, b3, b4⟩ := k5 (by rw [h3]; exact b)
    exact ⟨b1.trans a1, b2.trans a2, b3.trans a3, b4.trans a4⟩

/-- The end of a cycle is one cycle on the clocks. -/
theorem Clocked.endCycle (s : State) (k : CycleKind) (a : Word) (d : Byte) (dma : Option Byte) :
    Clocked s (s.endCycle k a d dma) := by
  refine ⟨[⟨k, ⟨a, d, s.irqPin, s.nmiPin, false, dma⟩⟩], by rw [State.endCycle_busLog]; rfl, by simp, by simp,
    fun b => ?_, fun b => ?_⟩
  · rw [State.endCycle_apuTicks, State.endCycle_ppu, State.busClock_nes s.counted b]
    refine ⟨rfl, ?_⟩
    dsimp only
    rw [Ppu.tick_framePos, Ppu.tick_framePos, Ppu.tick_framePos]
    simp only [State.counted_ppu, List.length_singleton]
    unfold dotsPerFrame
    omega
  · rw [State.endCycle_apuTicks, State.endCycle_ppu, State.busClock_flat s.counted b]
    simp

/-- Register accesses do not move the dot. -/
theorem Ppu.readRegister_samePos (p : Ppu) (c : Cart) (r : Nat) : p.samePos (p.readRegister c r).2 := by
  unfold Ppu.readRegister
  split <;> try exact ⟨rfl, rfl⟩
  unfold Ppu.dataRead
  dsimp only
  split <;> exact ⟨rfl, rfl⟩

theorem Ppu.writeRegister_samePos (p : Ppu) (c : Cart) (r : Nat) (d : Byte) : p.samePos (p.writeRegister c r d) := by
  unfold Ppu.writeRegister
  split <;> try exact ⟨rfl, rfl⟩
  · unfold Ppu.scrollWrite
    split <;> exact ⟨rfl, rfl⟩
  · unfold Ppu.addrWrite
    split <;> exact ⟨rfl, rfl⟩
  · unfold Ppu.dataWrite Ppu.write
    (repeat' split) <;> exact ⟨rfl, rfl⟩

theorem State.busRead_framePos (s : State) (a : Word) : (s.busRead a).2.ppu.framePos = s.ppu.framePos := by
  apply Ppu.samePos_framePos
  unfold State.busRead State.nesRead
  dsimp only
  (repeat' split) <;> first | exact ⟨rfl, rfl⟩ | exact Ppu.readRegister_samePos _ _ _

theorem State.busWrite_framePos (s : State) (a : Word) (v : Byte) : (s.busWrite a v).2.ppu.framePos = s.ppu.framePos := by
  apply Ppu.samePos_framePos
  unfold State.busWrite State.nesWrite
  dsimp only
  (repeat' split) <;> first | exact ⟨rfl, rfl⟩ | exact Ppu.writeRegister_samePos _ _ _ _

/-- The bus exchange takes no time. -/
theorem Clocked.exchange {s t : State} (h1 : t.busLog = s.busLog) (h2 : t.cycles = s.cycles) (h3 : t.params = s.params)
    (h4 : t.apuTicks = s.apuTicks) (h5 : t.ppu.framePos = s.ppu.framePos)
    (h6 : s.params.bus = .flat → t.ppu = s.ppu ∧ t.cart = s.cart ∧ t.extCalls = s.extCalls) : Clocked s t :=
  ⟨[], by simp [h1], by simp [h2], h3,
    fun _ => ⟨by simp [h4], by simp [h5, Nat.mod_eq_of_lt (Ppu.framePos_lt s.ppu)]⟩, fun b => ⟨h4, h6 b⟩⟩

theorem clocked_cycles : CycleClosed Clocked where
  refl := fun _ => Clocked.of_eq rfl rfl rfl rfl rfl rfl rfl
  trans := fun _ _ _ => Clocked.trans
  read := fun s a => by
    rw [State.memRead_snd]
    refine Clocked.trans (Clocked.exchange (by simp) (by simp) (by simp) (by simp) (State.busRead_framePos s a)
      (fun b => ?_)) (Clocked.endCycle _ _ _ _ _)
    rw [State.busRead_flat s a b]
    exact ⟨rfl, rfl, rfl⟩
  write := fun s a v => by
    rw [State.writeCycle_snd]
    refine Clocked.trans (Clocked.exchange (by simp) (by simp) (by simp) (by simp) (State.busWrite_framePos s a v)
      (fun b => ?_)) (Clocked.endCycle _ _ _ _ _)
    rw [State.busWrite_flat s a v b]
    exact ⟨rfl, rfl, rfl⟩
  idle := fun s => Clocked.endCycle s _ _ _ _

/-- Everything an instruction does keeps the clocks together. -/
theorem clocked_closed : Closed Clocked :=
  Closed.ofCycles clocked_cycles (fun _ _ => Clocked.of_eq rfl rfl rfl rfl rfl rfl rfl)
    (fun _ => Clocked.of_eq rfl rfl rfl rfl rfl rfl rfl)

/-- The log never shrinks. -/
theorem Clocked.logged_le {s t : State} (h : Clocked s t) : s.logged ≤ t.logged := by
  obtain ⟨l, h1, -⟩ := h
  simp [State.logged, h1]

/-- A read adds one entry to the log. -/
@[simp] theorem State.memRead_logged (s : State) (a : Word) : (s.memRead a).2.logged = s.logged + 1 := by
  simp [State.logged, State.memRead_snd, State.endCycle_busLog]

@[simp] theorem State.dummyRead_logged (s : State) (a : Word) : (s.dummyRead a).logged = s.logged + 1 :=
  State.memRead_logged s a

@[simp] theorem State.writeCycle_logged (s : State) (a : Word) (v : Byte) :
    (s.writeCycle a v).2.logged = s.logged + 1 := by
  simp [State.logged, State.writeCycle_snd, State.endCycle_busLog]

@[simp] theorem State.setPc_logged (s : State) (v : Word) : (s.setPc v).logged = s.logged := rfl
@[simp] theorem State.setS_logged (s : State) (v : Byte) : (s.setS v).logged = s.logged := rfl

@[simp] theorem State.fetch_logged (s : State) : s.fetch.2.logged = s.logged + 1 := by simp [State.fetch_eq]

theorem State.memWrite_logged_lt (s : State) (a : Word) (v : Byte) : s.logged < (s.memWrite a v).logged := by
  by_cases h : s.params.bus = .nes ∧ a = 0x4014#16
  · obtain ⟨h1, rfl⟩ := h
    rw [State.memWrite_dma s v h1]
    have := (clocked_cycles.runDma (s.writeCycle 0x4014#16 v).2 v).logged_le
    simp only [State.writeCycle_logged] at this
    omega
  · rw [State.memWrite_single s a v h]
    simp

theorem State.resolve_logged_lt (s : State) (m : MemMode) (cls : MemClass) : s.logged < (s.resolve m cls).2.logged := by
  have h := clocked_closed.toReadClosed
  have f : s.fetch.2.logged ≤ (s.resolve m cls).2.logged := by
    apply Clocked.logged_le
    have k := h.refl s.fetch.2
    cases m
    · exact k
    · exact h.dummyRead _ k
    · exact h.dummyRead _ k
    · exact h.fetch k
    · exact h.indexed _ _ _ _ (h.fetch k)
    · exact h.indexed _ _ _ _ (h.fetch k)
    · exact h.zpPointer _ (h.dummyRead _ k)
    · exact h.indexed _ _ _ _ (h.zpPointer _ k)
  rw [State.fetch_logged] at f
  omega

/-- Every instruction makes at least one bus cycle after its opcode fetch. -/
theorem exec_logged_lt {i : Instr} {s t : State} (he : exec i s = .next t) : s.logged < t.logged := by
  have h := clocked_closed
  have le : ∀ u, u.logged = s.logged + 1 → Clocked u t → s.logged < t.logged := by
    intro u e k
    have := k.logged_le
    omega
  have viaFetch : Clocked s.fetch.2 t → s.logged < t.logged := le _ (State.fetch_logged s)
  have viaDummy : ∀ a, Clocked (s.dummyRead a) t → s.logged < t.logged := fun a => le _ (State.dummyRead_logged s a)
  have viaResolve : ∀ m cls, Clocked (s.resolve m cls).2 t → s.logged < t.logged := by
    intro m cls k
    have h1 := State.resolve_logged_lt s m cls
    have h2 := k.logged_le
    omega
  have kd := h.refl (s.dummyRead s.cpu.pc)
  have kf := h.refl s.fetch.2
  cases runs_of_exec he with
  | implied _ hop => exact viaDummy _ (h.regOnly hop kd)
  | imm _ _ hop => exact viaFetch (h.regOnly (hop _) kf)
  | read _ _ hop => exact viaResolve _ _ (h.regOnly (hop _) (h.memRead _ (h.refl _)))
  | write => exact viaResolve _ _ (h.memWrite _ _ (h.refl _))
  | highAnd _ _ hpre => exact viaResolve _ _ (h.memWrite _ _ (h.regOnly hpre (h.refl _)))
  | rmw _ _ hop =>
    exact viaResolve _ _ (h.memWrite _ _ (h.regOnly (hop _) (h.memWrite _ _ (h.memRead _ (h.refl _)))))
  | branch =>
    refine viaFetch ?_
    unfold State.runBranch
    dsimp only
    split
    · refine h.setPc _ ?_
      split
      · exact h.dummyRead _ kf
      · exact h.dummyRead _ (h.dummyRead _ kf)
    · exact kf
  | jmpAbs =>
    refine viaFetch ?_
    unfold State.jumpAbs State.fetchPair
    dsimp only
    exact h.setPc _ (h.fetch kf)
  | jmpInd =>
    refine viaFetch ?_
    unfold State.jumpInd State.fetchPair
    dsimp only
    exact h.setPc _ (h.memRead _ (h.memRead _ (h.fetch kf)))
  | jsr =>
    refine viaFetch ?_
    unfold State.jumpSub
    dsimp only
    exact h.setPc _ (h.memRead _ (h.push _ (h.push _ (h.dummyRead _ kf))))
  | rts =>
    refine viaDummy s.cpu.pc ?_
    unfold State.returnSub
    dsimp only
    exact h.setPc _ (h.dummyRead _ (h.setPc _ (h.pull (h.pull (h.dummyRead _ kd)))))
  | rti =>
    refine viaDummy s.cpu.pc ?_
    unfold State.returnFromInterrupt
    dsimp only
    exact h.setPc _ (h.pull (h.pull (h.setP _ (h.pull (h.dummyRead _ kd)))))
  | brk =>
    refine viaFetch ?_
    unfold State.softwareInterrupt
    exact h.enterInterrupt _ kf
  | pha =>
    refine viaDummy s.cpu.pc ?_
    unfold State.pushA
    exact h.push _ kd
  | php =>
    refine viaDummy s.cpu.pc ?_
    unfold State.pushP
    exact h.push _ kd
  | pla =>
    refine viaDummy s.cpu.pc ?_
    unfold State.pullA State.pullByte
    dsimp only
    exact h.regOnly (f := fun s => s.loadA _) (fun _ => rfl) (h.pull (h.dummyRead _ kd))
  | plp =>
    refine viaDummy s.cpu.pc ?_
    unfold State.pullP State.pullByte
    dsimp only
    exact h.setP _ (h.pull (h.dummyRead _ kd))

end Sys2Proof.Machine
end

