-- ==== Sys2Proof/Laws/Frames.lean ====
section
/-! SUPPORT. What reads and writes do to the bytes of memory, seen through `peek`; the relations of
keeping the state well formed and the fixed parts as they are. -/

namespace Sys2Proof.Machine

/-! ## Peek -/

/-- `peek` depends on the bus, the RAM and the cartridge (R61). -/
theorem State.peek_congr {s t : State} (h1 : t.params = s.params) (h2 : t.ram = s.ram) (h3 : t.cart = s.cart)
    (a : Word) : t.peek a = s.peek a := by
  simp only [State.peek, h1, h2, h3]

/-- Where `peek` answers, a bus read gives the same byte and changes nothing (R61). -/
theorem State.busRead_of_peek {s : State} {a : Word} {b : Byte} (h : s.peek a = some b) : s.busRead a = (b, s) := by
  unfold State.peek at h
  unfold State.busRead State.nesRead
  cases hb : s.params.bus
  · rw [hb] at h
    dsimp only at h ⊢
    split at h
    · next h1 => cases h; rw [if_pos h1]
    · next h1 =>
      split at h
      · cases h
      · next h2 =>
        cases h
        rw [if_neg h1, if_neg (by omega), if_neg (by omega), if_neg (by omega), if_neg (by omega), if_neg (by omega)]
  · rw [hb] at h
    cases h
    rfl

theorem State.memRead_of_peek {s : State} {a : Word} {b : Byte} (h : s.peek a = some b) : (s.memRead a).1 = b := by
  rw [State.memRead_fst, State.busRead_of_peek h]

@[simp] theorem State.memRead_peek (s : State) (a b : Word) : (s.memRead a).2.peek b = s.peek b :=
  State.peek_congr (by simp) (by simp) (by simp) b

@[simp] theorem State.dummyRead_peek (s : State) (a b : Word) : (s.dummyRead a).peek b = s.peek b :=
  State.memRead_peek s a b

@[simp] theorem State.fetch_peek (s : State) (b : Word) : s.fetch.2.peek b = s.peek b :=
  State.peek_congr (by simp) (by simp) (by simp) b

@[simp] theorem State.setPc_peek (s : State) (v b : Word) : (s.setPc v).peek b = s.peek b := rfl
@[simp] theorem State.setS_peek (s : State) (v : Byte) (b : Word) : (s.setS v).peek b = s.peek b := rfl

/-- Below 0x800, zero page and stack page among it, `peek` is the RAM on both buses (R52, R56). -/
theorem State.peek_low (s : State) {a : Word} (h : a.toNat < 0x800) : s.peek a = some (s.ram.read a.toNat) := by
  unfold State.peek
  split
  · rfl
  · rw [if_pos (by omega), Nat.mod_eq_of_lt h]

theorem zext16_toNat (q : Byte) : (zext16 q).toNat = q.toNat := by
  unfold zext16
  simp [BitVec.toNat_setWidth]
  omega

theorem joinBytes_toNat (hi lo : Byte) : (joinBytes hi lo).toNat = hi.toNat * 256 + lo.toNat := by
  unfold joinBytes
  have h := lo.isLt
  rw [BitVec.toNat_append, Nat.shiftLeft_eq, ← Nat.shiftLeft_eq, ← Nat.shiftLeft_add_eq_or_of_lt h, Nat.shiftLeft_eq]

theorem joinBytes_one_lt (lo : Byte) : (joinBytes 0x01#8 lo).toNat < 0x800 := by
  have h := lo.isLt
  rw [joinBytes_toNat]
  simp
  omega

theorem zext16_lt (q : Byte) : (zext16 q).toNat < 0x800 := by
  have h := q.isLt
  rw [zext16_toNat]
  omega

/-- A read of the zero page or the stack page. -/
theorem State.memRead_low (s : State) {a : Word} (h : a.toNat < 0x800) : (s.memRead a).1 = s.ram.read a.toNat :=
  State.memRead_of_peek (s.peek_low h)

/-! ## Reads leave memory alone -/

/-- The bytes of memory, as data. -/
def SameStore (s t : State) : Prop :=
  t.params = s.params ∧ t.ram = s.ram ∧ t.cart = s.cart ∧ t.ppu.nt = s.ppu.nt ∧ t.ppu.pal = s.ppu.pal ∧
    t.ppu.oam = s.ppu.oam

theorem SameStore.peek {s t : State} (h : SameStore s t) (a : Word) : t.peek a = s.peek a :=
  State.peek_congr h.1 h.2.1 h.2.2.1 a

theorem Ppu.readRegister_samePort (p : Ppu) (c : Cart) (r : Nat) : (p.readRegister c r).2.nt = p.nt ∧
    (p.readRegister c r).2.pal = p.pal ∧ (p.readRegister c r).2.oam = p.oam := by
  unfold Ppu.readRegister
  split <;> try exact ⟨rfl, rfl, rfl⟩
  unfold Ppu.dataRead
  dsimp only
  split <;> exact ⟨rfl, rfl, rfl⟩

theorem State.busRead_store (s : State) (a : Word) : (s.busRead a).2.ppu.nt = s.ppu.nt ∧
    (s.busRead a).2.ppu.pal = s.ppu.pal ∧ (s.busRead a).2.ppu.oam = s.ppu.oam := by
  unfold State.busRead State.nesRead
  dsimp only
  (repeat' split) <;> first | exact ⟨rfl, rfl, rfl⟩ | exact Ppu.readRegister_samePort _ _ _

theorem State.endCycle_port (s : State) (k : CycleKind) (a : Word) (d : Byte) (dma : Option Byte) :
    Ppu.samePort s.ppu (s.endCycle k a d dma).ppu := by
  rw [State.endCycle_ppu]
  cases hb : s.params.bus with
  | flat => rw [State.busClock_flat s.counted hb]; exact Ppu.samePort_refl _
  | nes =>
    rw [State.busClock_nes s.counted hb]
    exact Ppu.samePort_trans (Ppu.samePort_trans (Ppu.tick_samePort _ _) (Ppu.tick_samePort _ _)) (Ppu.tick_samePort _ _)

theorem State.endCycle_sameStore (s : State) (k : CycleKind) (a : Word) (d : Byte) (dma : Option Byte) :
    SameStore s (s.endCycle k a d dma) := by
  have h := s.endCycle_port k a d dma
  exact ⟨by simp, by simp, by simp, h.1, h.2.1, h.2.2.1⟩

theorem SameStore.trans {s t u : State} (h : SameStore s t) (k : SameStore t u) : SameStore s u := by
  simp only [SameStore] at *
  simp [h, k]

theorem sameStore_reads : ReadClosed SameStore where
  refl := fun _ => ⟨rfl, rfl, rfl, rfl, rfl, rfl⟩
  trans := fun _ _ _ => SameStore.trans
  read := fun s a => by
    rw [State.memRead_snd]
    have h := State.busRead_store s a
    exact SameStore.trans ⟨by simp, by simp, by simp, h.1, h.2.1, h.2.2⟩ (State.endCycle_sameStore _ _ _ _ _)
  regs := fun _ _ => ⟨rfl, rfl, rfl, rfl, rfl, rfl⟩

/-! ## The fixed parts -/

/-- The parts of the state that no step changes (R10, R57, R59). -/
def SameFixed (s t : State) : Prop :=
  t.params = s.params ∧ t.inputs = s.inputs ∧ t.cart.prgRom = s.cart.prgRom ∧ t.cart.prgBanks = s.cart.prgBanks ∧
    t.cart.chrBanks = s.cart.chrBanks ∧ t.cart.chrRom = s.cart.chrRom ∧ t.cart.mirroring = s.cart.mirroring

theorem SameFixed.trans {s t u : State} (h : SameFixed s t) (k : SameFixed t u) : SameFixed s u := by
  simp only [SameFixed] at *
  simp [h, k]

theorem State.busWrite_fixedCart (s : State) (a : Word) (v : Byte) :
    (s.busWrite a v).2.cart.prgRom = s.cart.prgRom ∧ (s.busWrite a v).2.cart.prgBanks = s.cart.prgBanks ∧
      (s.busWrite a v).2.cart.chrBanks = s.cart.chrBanks ∧
      (s.busWrite a v).2.cart.chrRom = s.cart.chrRom ∧ (s.busWrite a v).2.cart.mirroring = s.cart.mirroring := by
  unfold State.busWrite State.nesWrite Cart.writePrg
  dsimp only
  (repeat' split) <;> exact ⟨rfl, rfl, rfl, rfl, rfl⟩

theorem sameFixed_closed : Closed SameFixed :=
  Closed.ofCycles
    { refl := fun _ => ⟨rfl, rfl, rfl, rfl, rfl, rfl, rfl⟩
      trans := fun _ _ _ => SameFixed.trans
      read := fun s a => by simp [SameFixed]
      write := fun s a v => by
        have h := State.busWrite_fixedCart s a v
        simp [SameFixed, h]
      idle := fun s => by simp [SameFixed] }
    (fun _ _ => ⟨rfl, rfl, rfl, rfl, rfl, rfl, rfl⟩) (fun _ => ⟨rfl, rfl, rfl, rfl, rfl, rfl, rfl⟩)

/-! ## Well-formed states -/

theorem wf_closed : Closed (fun s t => s.wf = true → t.wf = true) :=
  Closed.ofCycles cycleClosed_wf (fun _ _ h => h) (fun _ h => h)

/-! ## A write, seen through peek -/

/-- Two CPU addresses that name one byte (R52, R56). -/
def Alias (b : Bus) (x y : Word) : Prop :=
  x = y ∨ (b = .nes ∧ x.toNat < 0x2000 ∧ y.toNat < 0x2000 ∧ x.toNat % 0x800 = y.toNat % 0x800)

theorem State.busWrite_peek_other {s : State} {a b : Word} (v : Byte) (hw : s.wf = true)
    (h : ¬ Alias s.params.bus a b) : (s.busWrite a v).2.peek b = s.peek b := by
  obtain ⟨-, -, hram, hcart, -⟩ := (State.wf_iff s).mp hw
  have hne : a.toNat ≠ b.toNat := fun e => h (.inl (BitVec.eq_of_toNat_eq e))
  simp only [Cart.wf, Bool.and_eq_true] at hcart
  cases hb : s.params.bus with
  | flat =>
    rw [State.busWrite_flat s a v hb]
    unfold State.peek
    dsimp only
    rw [hb]
    dsimp only
    rw [Memory.read_write v _ hram, if_neg (fun e => hne e.symm)]
  | nes =>
    rw [hb] at h
    have hp : ∀ t : State, t.params = s.params → t.ram = s.ram → t.cart = s.cart → t.peek b = s.peek b :=
      fun t h1 h2 h3 => State.peek_congr h1 h2 h3 b
    unfold State.busWrite
    rw [hb]
    dsimp only
    unfold State.nesWrite
    dsimp only
    split
    · next h1 =>
      unfold State.peek
      dsimp only
      rw [hb]
      dsimp only
      split
      · next h2 =>
        rw [Memory.read_write v _ hram, if_neg]
        intro e
        exact h (.inr ⟨rfl, h1, h2, e.symm⟩)
      · rfl
    · split
      · exact hp _ rfl rfl rfl
      · split
        · exact hp _ rfl rfl rfl
        · split
          · exact hp _ rfl rfl rfl
          · split
            · exact hp _ rfl rfl rfl
            · split
              · exact hp _ rfl rfl rfl
              · by_cases hr : 0x6000 ≤ a.toNat ∧ a.toNat < 0x8000
                · have hc : s.cart.writePrg a.toNat v =
                      { s.cart with prgRam := s.cart.prgRam.write (a.toNat - 0x6000) v } := if_pos hr
                  rw [hc]
                  unfold State.peek Cart.readPrg
                  dsimp only
                  rw [hb]
                  dsimp only
                  split
                  · rfl
                  · split
                    · rfl
                    · split
                      · rfl
                      · split
                        · rw [Memory.read_write v _ hcart.1.2, if_neg (by omega)]
                        · rfl
                · have hc : s.cart.writePrg a.toNat v = s.cart := if_neg hr
                  rw [hc]

/-- Memory that keeps what is written to it (R53, R56, R59). -/
def Stores (b : Bus) (a : Word) : Prop := b = .flat ∨ a.toNat < 0x2000 ∨ (0x6000 ≤ a.toNat ∧ a.toNat < 0x8000)

theorem State.busWrite_peek_same {s : State} {a : Word} (v : Byte) (hw : s.wf = true) (h : Stores s.params.bus a) :
    (s.busWrite a v).2.peek a = some v := by
  obtain ⟨-, -, hram, hcart, -⟩ := (State.wf_iff s).mp hw
  simp only [Cart.wf, Bool.and_eq_true] at hcart
  unfold Stores at h
  cases hb : s.params.bus with
  | flat =>
    rw [State.busWrite_flat s a v hb]
    unfold State.peek
    dsimp only
    rw [hb]
    dsimp only
    rw [Memory.read_write v _ hram, if_pos rfl]
  | nes =>
    rw [hb] at h
    unfold State.busWrite
    rw [hb]
    dsimp only
    unfold State.nesWrite
    dsimp only
    by_cases h1 : a.toNat < 0x2000
    · rw [if_pos h1]
      unfold State.peek
      dsimp only
      rw [hb]
      dsimp only
      rw [if_pos h1, Memory.read_write v _ hram, if_pos rfl]
    · have h2 : 0x6000 ≤ a.toNat ∧ a.toNat < 0x8000 := by
        rcases h with h | h | h
        · cases h
        · omega
        · exact h
      rw [if_neg h1, if_neg (by omega), if_neg (by omega), if_neg (by omega), if_neg (by omega), if_neg (by omega)]
      unfold State.peek Cart.writePrg Cart.readPrg
      dsimp only
      rw [hb]
      dsimp only
      rw [if_neg h1, if_neg (by omega), if_pos h2]
      dsimp only
      rw [if_neg (by omega), if_pos (by omega), Memory.read_write v _ hcart.1.2, if_pos rfl]

/-- DMA leaves CPU memory alone (R195). -/
theorem State.dmaPair_cpuMemory (s : State) (page i : Byte) : (s.dmaPair page i).params = s.params ∧
    (s.dmaPair page i).ram = s.ram ∧ (s.dmaPair page i).cart = s.cart ∨ s.params.bus = .flat := by
  cases hb : s.params.bus with
  | flat => exact .inr rfl
  | nes =>
    refine .inl ?_
    have e : s.dmaPair page i = ((s.memRead (joinBytes page i)).2.writeCycle 0x2004#16 (s.memRead (joinBytes page i)).1).2 := rfl
    have w : ∀ (t : State) (v : Byte), t.params.bus = .nes →
        (t.busWrite 0x2004#16 v).2.ram = t.ram ∧ (t.busWrite 0x2004#16 v).2.cart = t.cart := by
      intro t v ht
      unfold State.busWrite
      rw [ht]
      exact ⟨rfl, rfl⟩
    have w' := w (s.memRead (joinBytes page i)).2 (s.memRead (joinBytes page i)).1 (by simp [hb])
    rw [e]
    simp [w']

theorem State.dmaCopy_cpuMemory (page : Byte) (n : Nat) (i : Byte) (s : State) (hb : s.params.bus = .nes) :
    (State.dmaCopy page n i s).params = s.params ∧ (State.dmaCopy page n i s).ram = s.ram ∧
      (State.dmaCopy page n i s).cart = s.cart := by
  induction n generalizing i s with
  | zero => exact ⟨rfl, rfl, rfl⟩
  | succ n ih =>
    rcases s.dmaPair_cpuMemory page i with h | h
    · have k := ih (i + 1#8) (s.dmaPair page i) (by rw [h.1]; exact hb)
      exact ⟨k.1.trans h.1, k.2.1.trans h.2.1, k.2.2.trans h.2.2⟩
    · rw [hb] at h; cases h

theorem State.runDma_cpuMemory (s : State) (page : Byte) (hb : s.params.bus = .nes) :
    (s.runDma page).params = s.params ∧ (s.runDma page).ram = s.ram ∧ (s.runDma page).cart = s.cart := by
  unfold State.runDma
  split
  · have k := State.dmaCopy_cpuMemory page 256 0#8 s.idleCycle (by simp [hb])
    simpa using k
  · exact State.dmaCopy_cpuMemory page 256 0#8 s hb

/-- A write, with the DMA it may start, seen through `peek`, is its bus exchange. -/
theorem State.memWrite_peek (s : State) (a : Word) (v : Byte) (b : Word) :
    (s.memWrite a v).peek b = (s.busWrite a v).2.peek b := by
  by_cases h : s.params.bus = .nes ∧ a = 0x4014#16
  · obtain ⟨h1, rfl⟩ := h
    rw [State.memWrite_dma s v h1]
    have k := State.runDma_cpuMemory (s.writeCycle 0x4014#16 v).2 v (by simp [h1])
    exact State.peek_congr (by simp [k]) (by simp [k]) (by simp [k]) b
  · rw [State.memWrite_single s a v h]
    exact State.peek_congr (by simp) (by simp) (by simp) b

/-- A byte written to memory reads back (R62). -/
theorem State.memWrite_peek_same {s : State} {a : Word} (v : Byte) (hw : s.wf = true) (h : Stores s.params.bus a) :
    (s.memWrite a v).peek a = some v := by
  rw [State.memWrite_peek, State.busWrite_peek_same v hw h]

/-- No other byte changes (R62). -/
theorem State.memWrite_peek_other {s : State} {a b : Word} (v : Byte) (hw : s.wf = true)
    (h : ¬ Alias s.params.bus a b) : (s.memWrite a v).peek b = s.peek b := by
  rw [State.memWrite_peek, State.busWrite_peek_other v hw h]

theorem State.memWrite_wf {s : State} (hw : s.wf = true) (a : Word) (v : Byte) : (s.memWrite a v).wf = true :=
  wf_closed.write s a v hw

theorem State.push_wf {s : State} (hw : s.wf = true) (v : Byte) : (s.push v).wf = true :=
  wf_closed.push v (fun h => h) hw

/-! ## Pushes and pulls -/

theorem stores_stack (b : Bus) (x : Byte) : Stores b (joinBytes 0x01#8 x) := by
  have h := joinBytes_one_lt x
  exact .inr (.inl (by omega))

/-- A push stores its byte in the slot S names (R19). -/
theorem State.push_peek_same {s : State} (hw : s.wf = true) (v : Byte) : (s.push v).peek s.stackAddr = some v := by
  rw [State.push_eq, State.setS_peek]
  exact State.memWrite_peek_same v hw (stores_stack _ _)

theorem State.push_peek_other {s : State} (hw : s.wf = true) (v : Byte) {b : Word}
    (h : ¬ Alias s.params.bus s.stackAddr b) : (s.push v).peek b = s.peek b := by
  rw [State.push_eq, State.setS_peek]
  exact State.memWrite_peek_other v hw h

/-- A pull reads the byte above the top of the stack (R19). -/
theorem State.pull_fst (s : State) : s.pull.1 = s.ram.read (joinBytes 0x01#8 (s.cpu.s + 1#8)).toNat := by
  rw [State.pull_eq]
  exact State.memRead_low _ (joinBytes_one_lt _)

@[simp] theorem State.pull_peek (s : State) (b : Word) : s.pull.2.peek b = s.peek b :=
  State.peek_congr (by simp) (by simp) (by simp) b

end Sys2Proof.Machine
end

