-- ==== Sys2Proof/Laws/Operands.lean ====
section
/-! SUPPORT. What the resolver leaves in the registers, and the access classes as equations: the state after
the bus cycles, with the registers the operation leaves. -/

namespace Sys2Proof.Machine

/-- How many operand bytes a mode with a memory address takes (R68, R69). -/
def MemMode.bytes : MemMode → Nat
  | .zp => 1
  | .zpx => 1
  | .zpy => 1
  | .abs => 2
  | .abx => 2
  | .aby => 2
  | .izx => 1
  | .izy => 1

theorem pc_add_two (pc : Word) : pc + 1#16 + 1#16 = pc + 2#16 := by
  rw [BitVec.add_assoc]
  rfl

@[simp] theorem State.fetchPair_cpu (s : State) : s.fetchPair.2.2.cpu = { s.cpu with pc := s.cpu.pc + 2#16 } := by
  have h : s.fetchPair.2.2 = s.fetch.2.fetch.2 := rfl
  rw [h, State.fetch_cpu, State.fetch_cpu]
  simp only [pc_add_two]

@[simp] theorem State.fetchPair_params (s : State) : s.fetchPair.2.2.params = s.params := by
  have h : s.fetchPair.2.2 = s.fetch.2.fetch.2 := rfl
  rw [h, State.fetch_params, State.fetch_params]

@[simp] theorem State.zpPointer_cpu (s : State) (q : Byte) : (s.zpPointer q).2.2.cpu = s.cpu := by
  have h : (s.zpPointer q).2.2 = ((s.memRead (zext16 q)).2.memRead (zext16 (q + 1#8))).2 := rfl
  rw [h, State.memRead_cpu, State.memRead_cpu]

@[simp] theorem State.indexed_cpu (s : State) (cls : MemClass) (hi lo idx : Byte) :
    (s.indexed cls hi lo idx).2.cpu = s.cpu := by
  unfold State.indexed
  dsimp only
  split
  · rfl
  · exact State.dummyRead_cpu _ _

/-- The resolver moves PC past the operand bytes and changes no other register (R81 to R86). -/
@[simp] theorem State.resolve_cpu (s : State) (m : MemMode) (cls : MemClass) :
    (s.resolve m cls).2.cpu = { s.cpu with pc := s.cpu.pc + BitVec.ofNat 16 m.bytes } := by
  cases m
  · exact State.fetch_cpu s
  · exact (State.dummyRead_cpu _ _).trans (State.fetch_cpu s)
  · exact (State.dummyRead_cpu _ _).trans (State.fetch_cpu s)
  · exact State.fetchPair_cpu s
  · exact (State.indexed_cpu _ _ _ _ _).trans (State.fetchPair_cpu s)
  · exact (State.indexed_cpu _ _ _ _ _).trans (State.fetchPair_cpu s)
  · exact (State.zpPointer_cpu _ _).trans ((State.dummyRead_cpu _ _).trans (State.fetch_cpu s))
  · exact (State.indexed_cpu _ _ _ _ _).trans ((State.zpPointer_cpu _ _).trans (State.fetch_cpu s))

theorem sameParams_reads : ReadClosed (fun s t => t.params = s.params) :=
  ⟨fun _ => rfl, fun _ _ _ h k => k.trans h, fun s a => State.memRead_params s a, fun _ _ => rfl⟩

@[simp] theorem State.resolve_params (s : State) (m : MemMode) (cls : MemClass) :
    (s.resolve m cls).2.params = s.params := sameParams_reads.resolve m cls (sameParams_reads.refl s)

/-- The operand bytes of an instruction with a memory address are those of its mode (R68). -/
theorem memModeOf_bytes {i : Instr} {m : MemMode} (h : memModeOf i.mode = some m) : i.operandCount = m.bytes := by
  cases i <;> first
    | (cases h; done)
    | (cases h; rfl)

/-! ## The classes as equations -/

theorem State.runRead_eq (s : State) (m : MemMode) (op : Byte → State → State) :
    s.runRead m op = op ((s.resolve m .read).2.memRead (s.resolve m .read).1.ea).1
      ((s.resolve m .read).2.memRead (s.resolve m .read).1.ea).2 := rfl

theorem State.runImm_eq (s : State) (op : Byte → State → State) : s.runImm op = op s.fetch.1 s.fetch.2 := rfl

theorem State.runWrite_eq (s : State) (m : MemMode) (val : State → Byte) :
    s.runWrite m val = (s.resolve m .write).2.memWrite (s.resolve m .write).1.ea (val (s.resolve m .write).2) := rfl

theorem State.runHighAnd_eq (s : State) (m : MemMode) (pre : State → State) (reg : State → Byte) :
    s.runHighAnd m pre reg = (pre (s.resolve m .write).2).memWrite
      (highAndAddr (reg (pre (s.resolve m .write).2)) (s.resolve m .write).1)
      (highAndValue (reg (pre (s.resolve m .write).2)) (s.resolve m .write).1) := rfl

/-- The read of class `M`. -/
def State.rmwRead (s : State) (m : MemMode) : Byte × State :=
  (s.resolve m .rmw).2.memRead (s.resolve m .rmw).1.ea

/-- The state of class `M` after the dummy write of the old value (R89). -/
def State.rmwOld (s : State) (m : MemMode) : State :=
  (s.rmwRead m).2.memWrite (s.resolve m .rmw).1.ea (s.rmwRead m).1

theorem State.runRmw_eq (s : State) (m : MemMode) (op : Byte → State → Byte × State) :
    s.runRmw m op = (op (s.rmwRead m).1 (s.rmwOld m)).2.memWrite (s.resolve m .rmw).1.ea
      (op (s.rmwRead m).1 (s.rmwOld m)).1 := rfl

@[simp] theorem State.rmwOld_cpu (s : State) (m : MemMode) :
    (s.rmwOld m).cpu = { s.cpu with pc := s.cpu.pc + BitVec.ofNat 16 m.bytes } := by
  simp [State.rmwOld, State.rmwRead]

@[simp] theorem State.rmwOld_params (s : State) (m : MemMode) : (s.rmwOld m).params = s.params := by
  simp [State.rmwOld, State.rmwRead]

end Sys2Proof.Machine
end

