-- ==== Sys2Proof/Laws/PerInstr.lean ====
section
/-! SUPPORT. The statements made instruction by instruction. -/

namespace Sys2Proof.Laws

/-- The opcode of an instruction selects it in the opcode map (R71, R72). -/
def Codec.Statement (i : Instr) : Prop := decodeOpcode i.opcode = i

theorem Codec.brk : Codec.Statement .brk := rfl
theorem Codec.oraIzx : Codec.Statement .oraIzx := rfl
theorem Codec.jam02 : Codec.Statement .jam02 := rfl
theorem Codec.sloIzx : Codec.Statement .sloIzx := rfl
theorem Codec.nopZp04 : Codec.Statement .nopZp04 := rfl
theorem Codec.oraZp : Codec.Statement .oraZp := rfl
theorem Codec.aslZp : Codec.Statement .aslZp := rfl
theorem Codec.sloZp : Codec.Statement .sloZp := rfl
theorem Codec.php : Codec.Statement .php := rfl
theorem Codec.oraImm : Codec.Statement .oraImm := rfl
theorem Codec.aslAcc : Codec.Statement .aslAcc := rfl
theorem Codec.ancImm0B : Codec.Statement .ancImm0B := rfl
theorem Codec.nopAbs : Codec.Statement .nopAbs := rfl
theorem Codec.oraAbs : Codec.Statement .oraAbs := rfl
theorem Codec.aslAbs : Codec.Statement .aslAbs := rfl
theorem Codec.sloAbs : Codec.Statement .sloAbs := rfl
theorem Codec.bpl : Codec.Statement .bpl := rfl
theorem Codec.oraIzy : Codec.Statement .oraIzy := rfl
theorem Codec.jam12 : Codec.Statement .jam12 := rfl
theorem Codec.sloIzy : Codec.Statement .sloIzy := rfl
theorem Codec.nopZpx14 : Codec.Statement .nopZpx14 := rfl
theorem Codec.oraZpx : Codec.Statement .oraZpx := rfl
theorem Codec.aslZpx : Codec.Statement .aslZpx := rfl
theorem Codec.sloZpx : Codec.Statement .sloZpx := rfl
theorem Codec.clc : Codec.Statement .clc := rfl
theorem Codec.oraAby : Codec.Statement .oraAby := rfl
theorem Codec.nopImp1A : Codec.Statement .nopImp1A := rfl
theorem Codec.sloAby : Codec.Statement .sloAby := rfl
theorem Codec.nopAbx1C : Codec.Statement .nopAbx1C := rfl
theorem Codec.oraAbx : Codec.Statement .oraAbx := rfl
theorem Codec.aslAbx : Codec.Statement .aslAbx := rfl
theorem Codec.sloAbx : Codec.Statement .sloAbx := rfl
theorem Codec.jsr : Codec.Statement .jsr := rfl
theorem Codec.andIzx : Codec.Statement .andIzx := rfl
theorem Codec.jam22 : Codec.Statement .jam22 := rfl
theorem Codec.rlaIzx : Codec.Statement .rlaIzx := rfl
theorem Codec.bitZp : Codec.Statement .bitZp := rfl
theorem Codec.andZp : Codec.Statement .andZp := rfl
theorem Codec.rolZp : Codec.Statement .rolZp := rfl
theorem Codec.rlaZp : Codec.Statement .rlaZp := rfl
theorem Codec.plp : Codec.Statement .plp := rfl
theorem Codec.andImm : Codec.Statement .andImm := rfl
theorem Codec.rolAcc : Codec.Statement .rolAcc := rfl
theorem Codec.ancImm2B : Codec.Statement .ancImm2B := rfl
theorem Codec.bitAbs : Codec.Statement .bitAbs := rfl
theorem Codec.andAbs : Codec.Statement .andAbs := rfl
theorem Codec.rolAbs : Codec.Statement .rolAbs := rfl
theorem Codec.rlaAbs : Codec.Statement .rlaAbs := rfl
theorem Codec.bmi : Codec.Statement .bmi := rfl
theorem Codec.andIzy : Codec.Statement .andIzy := rfl
theorem Codec.jam32 : Codec.Statement .jam32 := rfl
theorem Codec.rlaIzy : Codec.Statement .rlaIzy := rfl
theorem Codec.nopZpx34 : Codec.Statement .nopZpx34 := rfl
theorem Codec.andZpx : Codec.Statement .andZpx := rfl
theorem Codec.rolZpx : Codec.Statement .rolZpx := rfl
theorem Codec.rlaZpx : Codec.Statement .rlaZpx := rfl
theorem Codec.sec : Codec.Statement .sec := rfl
theorem Codec.andAby : Codec.Statement .andAby := rfl
theorem Codec.nopImp3A : Codec.Statement .nopImp3A := rfl
theorem Codec.rlaAby : Codec.Statement .rlaAby := rfl
theorem Codec.nopAbx3C : Codec.Statement .nopAbx3C := rfl
theorem Codec.andAbx : Codec.Statement .andAbx := rfl
theorem Codec.rolAbx : Codec.Statement .rolAbx := rfl
theorem Codec.rlaAbx : Codec.Statement .rlaAbx := rfl
theorem Codec.rti : Codec.Statement .rti := rfl
theorem Codec.eorIzx : Codec.Statement .eorIzx := rfl
theorem Codec.jam42 : Codec.Statement .jam42 := rfl
theorem Codec.sreIzx : Codec.Statement .sreIzx := rfl
theorem Codec.nopZp44 : Codec.Statement .nopZp44 := rfl
theorem Codec.eorZp : Codec.Statement .eorZp := rfl
theorem Codec.lsrZp : Codec.Statement .lsrZp := rfl
theorem Codec.sreZp : Codec.Statement .sreZp := rfl
theorem Codec.pha : Codec.Statement .pha := rfl
theorem Codec.eorImm : Codec.Statement .eorImm := rfl
theorem Codec.lsrAcc : Codec.Statement .lsrAcc := rfl
theorem Codec.alrImm : Codec.Statement .alrImm := rfl
theorem Codec.jmpAbs : Codec.Statement .jmpAbs := rfl
theorem Codec.eorAbs : Codec.Statement .eorAbs := rfl
theorem Codec.lsrAbs : Codec.Statement .lsrAbs := rfl
theorem Codec.sreAbs : Codec.Statement .sreAbs := rfl
theorem Codec.bvc : Codec.Statement .bvc := rfl
theorem Codec.eorIzy : Codec.Statement .eorIzy := rfl
theorem Codec.jam52 : Codec.Statement .jam52 := rfl
theorem Codec.sreIzy : Codec.Statement .sreIzy := rfl
theorem Codec.nopZpx54 : Codec.Statement .nopZpx54 := rfl
theorem Codec.eorZpx : Codec.Statement .eorZpx := rfl
theorem Codec.lsrZpx : Codec.Statement .lsrZpx := rfl
theorem Codec.sreZpx : Codec.Statement .sreZpx := rfl
theorem Codec.cli : Codec.Statement .cli := rfl
theorem Codec.eorAby : Codec.Statement .eorAby := rfl
theorem Codec.nopImp5A : Codec.Statement .nopImp5A := rfl
theorem Codec.sreAby : Codec.Statement .sreAby := rfl
theorem Codec.nopAbx5C : Codec.Statement .nopAbx5C := rfl
theorem Codec.eorAbx : Codec.Statement .eorAbx := rfl
theorem Codec.lsrAbx : Codec.Statement .lsrAbx := rfl
theorem Codec.sreAbx : Codec.Statement .sreAbx := rfl
theorem Codec.rts : Codec.Statement .rts := rfl
theorem Codec.adcIzx : Codec.Statement .adcIzx := rfl
theorem Codec.jam62 : Codec.Statement .jam62 := rfl
theorem Codec.rraIzx : Codec.Statement .rraIzx := rfl
theorem Codec.nopZp64 : Codec.Statement .nopZp64 := rfl
theorem Codec.adcZp : Codec.Statement .adcZp := rfl
theorem Codec.rorZp : Codec.Statement .rorZp := rfl
theorem Codec.rraZp : Codec.Statement .rraZp := rfl
theorem Codec.pla : Codec.Statement .pla := rfl
theorem Codec.adcImm : Codec.Statement .adcImm := rfl
theorem Codec.rorAcc : Codec.Statement .rorAcc := rfl
theorem Codec.arrImm : Codec.Statement .arrImm := rfl
theorem Codec.jmpInd : Codec.Statement .jmpInd := rfl
theorem Codec.adcAbs : Codec.Statement .adcAbs := rfl
theorem Codec.rorAbs : Codec.Statement .rorAbs := rfl
theorem Codec.rraAbs : Codec.Statement .rraAbs := rfl
theorem Codec.bvs : Codec.Statement .bvs := rfl
theorem Codec.adcIzy : Codec.Statement .adcIzy := rfl
theorem Codec.jam72 : Codec.Statement .jam72 := rfl
theorem Codec.rraIzy : Codec.Statement .rraIzy := rfl
theorem Codec.nopZpx74 : Codec.Statement .nopZpx74 := rfl
theorem Codec.adcZpx : Codec.Statement .adcZpx := rfl
theorem Codec.rorZpx : Codec.Statement .rorZpx := rfl
theorem Codec.rraZpx : Codec.Statement .rraZpx := rfl
theorem Codec.sei : Codec.Statement .sei := rfl
theorem Codec.adcAby : Codec.Statement .adcAby := rfl
theorem Codec.nopImp7A : Codec.Statement .nopImp7A := rfl
theorem Codec.rraAby : Codec.Statement .rraAby := rfl
theorem Codec.nopAbx7C : Codec.Statement .nopAbx7C := rfl
theorem Codec.adcAbx : Codec.Statement .adcAbx := rfl
theorem Codec.rorAbx : Codec.Statement .rorAbx := rfl
theorem Codec.rraAbx : Codec.Statement .rraAbx := rfl
theorem Codec.nopImm80 : Codec.Statement .nopImm80 := rfl
theorem Codec.staIzx : Codec.Statement .staIzx := rfl
theorem Codec.nopImm82 : Codec.Statement .nopImm82 := rfl
theorem Codec.saxIzx : Codec.Statement .saxIzx := rfl
theorem Codec.styZp : Codec.Statement .styZp := rfl
theorem Codec.staZp : Codec.Statement .staZp := rfl
theorem Codec.stxZp : Codec.Statement .stxZp := rfl
theorem Codec.saxZp : Codec.Statement .saxZp := rfl
theorem Codec.dey : Codec.Statement .dey := rfl
theorem Codec.nopImm89 : Codec.Statement .nopImm89 := rfl
theorem Codec.txa : Codec.Statement .txa := rfl
theorem Codec.aneImm : Codec.Statement .aneImm := rfl
theorem Codec.styAbs : Codec.Statement .styAbs := rfl
theorem Codec.staAbs : Codec.Statement .staAbs := rfl
theorem Codec.stxAbs : Codec.Statement .stxAbs := rfl
theorem Codec.saxAbs : Codec.Statement .saxAbs := rfl
theorem Codec.bcc : Codec.Statement .bcc := rfl
theorem Codec.staIzy : Codec.Statement .staIzy := rfl
theorem Codec.jam92 : Codec.Statement .jam92 := rfl
theorem Codec.shaIzy : Codec.Statement .shaIzy := rfl
theorem Codec.styZpx : Codec.Statement .styZpx := rfl
theorem Codec.staZpx : Codec.Statement .staZpx := rfl
theorem Codec.stxZpy : Codec.Statement .stxZpy := rfl
theorem Codec.saxZpy : Codec.Statement .saxZpy := rfl
theorem Codec.tya : Codec.Statement .tya := rfl
theorem Codec.staAby : Codec.Statement .staAby := rfl
theorem Codec.txs : Codec.Statement .txs := rfl
theorem Codec.tasAby : Codec.Statement .tasAby := rfl
theorem Codec.shyAbx : Codec.Statement .shyAbx := rfl
theorem Codec.staAbx : Codec.Statement .staAbx := rfl
theorem Codec.shxAby : Codec.Statement .shxAby := rfl
theorem Codec.shaAby : Codec.Statement .shaAby := rfl
theorem Codec.ldyImm : Codec.Statement .ldyImm := rfl
theorem Codec.ldaIzx : Codec.Statement .ldaIzx := rfl
theorem Codec.ldxImm : Codec.Statement .ldxImm := rfl
theorem Codec.laxIzx : Codec.Statement .laxIzx := rfl
theorem Codec.ldyZp : Codec.Statement .ldyZp := rfl
theorem Codec.ldaZp : Codec.Statement .ldaZp := rfl
theorem Codec.ldxZp : Codec.Statement .ldxZp := rfl
theorem Codec.laxZp : Codec.Statement .laxZp := rfl
theorem Codec.tay : Codec.Statement .tay := rfl
theorem Codec.ldaImm : Codec.Statement .ldaImm := rfl
theorem Codec.tax : Codec.Statement .tax := rfl
theorem Codec.lxaImm : Codec.Statement .lxaImm := rfl
theorem Codec.ldyAbs : Codec.Statement .ldyAbs := rfl
theorem Codec.ldaAbs : Codec.Statement .ldaAbs := rfl
theorem Codec.ldxAbs : Codec.Statement .ldxAbs := rfl
theorem Codec.laxAbs : Codec.Statement .laxAbs := rfl
theorem Codec.bcs : Codec.Statement .bcs := rfl
theorem Codec.ldaIzy : Codec.Statement .ldaIzy := rfl
theorem Codec.jamB2 : Codec.Statement .jamB2 := rfl
theorem Codec.laxIzy : Codec.Statement .laxIzy := rfl
theorem Codec.ldyZpx : Codec.Statement .ldyZpx := rfl
theorem Codec.ldaZpx : Codec.Statement .ldaZpx := rfl
theorem Codec.ldxZpy : Codec.Statement .ldxZpy := rfl
theorem Codec.laxZpy : Codec.Statement .laxZpy := rfl
theorem Codec.clv : Codec.Statement .clv := rfl
theorem Codec.ldaAby : Codec.Statement .ldaAby := rfl
theorem Codec.tsx : Codec.Statement .tsx := rfl
theorem Codec.lasAby : Codec.Statement .lasAby := rfl
theorem Codec.ldyAbx : Codec.Statement .ldyAbx := rfl
theorem Codec.ldaAbx : Codec.Statement .ldaAbx := rfl
theorem Codec.ldxAby : Codec.Statement .ldxAby := rfl
theorem Codec.laxAby : Codec.Statement .laxAby := rfl
theorem Codec.cpyImm : Codec.Statement .cpyImm := rfl
theorem Codec.cmpIzx : Codec.Statement .cmpIzx := rfl
theorem Codec.nopImmC2 : Codec.Statement .nopImmC2 := rfl
theorem Codec.dcpIzx : Codec.Statement .dcpIzx := rfl
theorem Codec.cpyZp : Codec.Statement .cpyZp := rfl
theorem Codec.cmpZp : Codec.Statement .cmpZp := rfl
theorem Codec.decZp : Codec.Statement .decZp := rfl
theorem Codec.dcpZp : Codec.Statement .dcpZp := rfl
theorem Codec.iny : Codec.Statement .iny := rfl
theorem Codec.cmpImm : Codec.Statement .cmpImm := rfl
theorem Codec.dex : Codec.Statement .dex := rfl
theorem Codec.sbxImm : Codec.Statement .sbxImm := rfl
theorem Codec.cpyAbs : Codec.Statement .cpyAbs := rfl
theorem Codec.cmpAbs : Codec.Statement .cmpAbs := rfl
theorem Codec.decAbs : Codec.Statement .decAbs := rfl
theorem Codec.dcpAbs : Codec.Statement .dcpAbs := rfl
theorem Codec.bne : Codec.Statement .bne := rfl
theorem Codec.cmpIzy : Codec.Statement .cmpIzy := rfl
theorem Codec.jamD2 : Codec.Statement .jamD2 := rfl
theorem Codec.dcpIzy : Codec.Statement .dcpIzy := rfl
theorem Codec.nopZpxD4 : Codec.Statement .nopZpxD4 := rfl
theorem Codec.cmpZpx : Codec.Statement .cmpZpx := rfl
theorem Codec.decZpx : Codec.Statement .decZpx := rfl
theorem Codec.dcpZpx : Codec.Statement .dcpZpx := rfl
theorem Codec.cld : Codec.Statement .cld := rfl
theorem Codec.cmpAby : Codec.Statement .cmpAby := rfl
theorem Codec.nopImpDA : Codec.Statement .nopImpDA := rfl
theorem Codec.dcpAby : Codec.Statement .dcpAby := rfl
theorem Codec.nopAbxDC : Codec.Statement .nopAbxDC := rfl
theorem Codec.cmpAbx : Codec.Statement .cmpAbx := rfl
theorem Codec.decAbx : Codec.Statement .decAbx := rfl
theorem Codec.dcpAbx : Codec.Statement .dcpAbx := rfl
theorem Codec.cpxImm : Codec.Statement .cpxImm := rfl
theorem Codec.sbcIzx : Codec.Statement .sbcIzx := rfl
theorem Codec.nopImmE2 : Codec.Statement .nopImmE2 := rfl
theorem Codec.isbIzx : Codec.Statement .isbIzx := rfl
theorem Codec.cpxZp : Codec.Statement .cpxZp := rfl
theorem Codec.sbcZp : Codec.Statement .sbcZp := rfl
theorem Codec.incZp : Codec.Statement .incZp := rfl
theorem Codec.isbZp : Codec.Statement .isbZp := rfl
theorem Codec.inx : Codec.Statement .inx := rfl
theorem Codec.sbcImm : Codec.Statement .sbcImm := rfl
theorem Codec.nop : Codec.Statement .nop := rfl
theorem Codec.usbcImm : Codec.Statement .usbcImm := rfl
theorem Codec.cpxAbs : Codec.Statement .cpxAbs := rfl
theorem Codec.sbcAbs : Codec.Statement .sbcAbs := rfl
theorem Codec.incAbs : Codec.Statement .incAbs := rfl
theorem Codec.isbAbs : Codec.Statement .isbAbs := rfl
theorem Codec.beq : Codec.Statement .beq := rfl
theorem Codec.sbcIzy : Codec.Statement .sbcIzy := rfl
theorem Codec.jamF2 : Codec.Statement .jamF2 := rfl
theorem Codec.isbIzy : Codec.Statement .isbIzy := rfl
theorem Codec.nopZpxF4 : Codec.Statement .nopZpxF4 := rfl
theorem Codec.sbcZpx : Codec.Statement .sbcZpx := rfl
theorem Codec.incZpx : Codec.Statement .incZpx := rfl
theorem Codec.isbZpx : Codec.Statement .isbZpx := rfl
theorem Codec.sed : Codec.Statement .sed := rfl
theorem Codec.sbcAby : Codec.Statement .sbcAby := rfl
theorem Codec.nopImpFA : Codec.Statement .nopImpFA := rfl
theorem Codec.isbAby : Codec.Statement .isbAby := rfl
theorem Codec.nopAbxFC : Codec.Statement .nopAbxFC := rfl
theorem Codec.sbcAbx : Codec.Statement .sbcAbx := rfl
theorem Codec.incAbx : Codec.Statement .incAbx := rfl
theorem Codec.isbAbx : Codec.Statement .isbAbx := rfl

end Sys2Proof.Laws
end

