-- ==== Sys2Proof/Tests/Slice0.lean ====
section
/-! SUPPORT. Tests of the definitions, with expected values from spec/ (the rule or the test vector is named at
each), and for every obligation that has hypotheses a concrete case that meets them. -/

namespace Sys2Proof.Tests

open Sys2Proof.Machine Sys2Proof.Claims

/-! ## Helpers -/

/-- A `FLAT` machine loaded as the fixtures of 95_test_vectors.md are: registers, P, PC, code at PC, bytes. -/
def loaded (m : DecimalMode) (a x y sp p : Byte) (pc : Word) (code : List Byte) (mem : List (Word × Byte)) : State :=
  ((State.flatPowerOn m).loadState a x y sp p pc mem).placeAll pc code

/-- One step ends with these registers and P, after so many cycles, with these bytes in memory and, where a log is
given, these bus cycles. -/
def endsIn (s : State) (a x y sp p : Byte) (pc : Word) (n : Nat) (mem : List (Word × Byte))
    (log : List (CycleKind × Word × Byte)) : Bool :=
  match step s with
  | .next t =>
    t.cpu == ⟨a, x, y, sp, pc, Flags.ofByte p⟩ && t.cpu.p.toByte false == p && t.cycles.toNat == n &&
      mem.all (fun e => t.peek e.1 == some e.2) &&
      (log.isEmpty || t.busLog.reverse.map (fun c => (c.kind, c.pins.address, c.pins.data)) == log)
  | _ => false

/-- The state after a step, or the same state. -/
def next (s : State) : State :=
  match step s with
  | .next t => t
  | _ => s

/-- The state after an instruction, or the same state. -/
def did (i : Instr) (s : State) : State :=
  match exec i s with
  | .next t => t
  | _ => s

/-- Does the step end in a next state? -/
def stepRuns (s : State) : Bool :=
  match step s with
  | .next _ => true
  | _ => false

theorem step_next {s : State} (h : stepRuns s = true) : step s = .next (next s) := by
  unfold stepRuns at h
  unfold next
  cases e : step s <;> simp_all

/-- Does the instruction end in a next state? -/
def execRuns (i : Instr) (s : State) : Bool :=
  match exec i s with
  | .next _ => true
  | _ => false

theorem exec_next {i : Instr} {s : State} (h : execRuns i s = true) : exec i s = .next (did i s) := by
  unfold execRuns at h
  unfold did
  cases e : exec i s <;> simp_all

/-- Each byte decodes to its instruction, of this mnemonic, mode and base cycle count. -/
def decodesTo (k : Mnemonic) (rows : List (Byte × Instr × Mode × Nat)) : Bool :=
  rows.all (fun r => decodeOpcode r.1 == r.2.1 && r.2.1.mnemonic == k && r.2.1.mode == r.2.2.1 &&
    r.2.1.baseCycles == r.2.2.2)

/-- A `FLAT` machine at 0x0200 in which nothing is listed. -/
def flatAt : State := loaded .binary 0#8 0#8 0#8 0xFD#8 0x20#8 0x0200#16 [] []

/-! ## Ill-formed terms are refused -/

theorem test_wellFormed_refuses :
    Assembled.wellFormed ⟨.ldaImm, []⟩ = false ∧ Assembled.wellFormed ⟨.ldaImm, [1#8, 2#8]⟩ = false ∧
    Assembled.wellFormed ⟨.jsr, [1#8]⟩ = false ∧ Assembled.wellFormed ⟨.brk, [0#8]⟩ = false ∧
    Assembled.wellFormed ⟨.tax, [0#8]⟩ = false ∧ Assembled.wellFormed ⟨.jmpInd, [1#8, 2#8, 3#8]⟩ = false := by decide

theorem test_wellFormed_accepts :
    Assembled.wellFormed ⟨.ldaImm, [1#8]⟩ = true ∧ Assembled.wellFormed ⟨.jsr, [1#8, 2#8]⟩ = true ∧
    Assembled.wellFormed ⟨.brk, []⟩ = true := by decide

theorem test_memory_wf_refuses :
    Memory.wf 0x800 [(3, 1#8), (2, 1#8)] = false ∧ Memory.wf 0x800 [(3, 1#8), (3, 2#8)] = false ∧
    Memory.wf 0x800 [(3, 0#8)] = false ∧ Memory.wf 0x800 [(0x800, 1#8)] = false ∧
    Memory.wf 0x800 [(2, 1#8), (3, 1#8)] = true := by decide

theorem test_queueWf_refuses :
    queueWf [] = false ∧ queueWf [⟨.reset, 0#64⟩] = false ∧ queueWf [Event.atEnd, Event.atEnd] = false ∧
    queueWf [⟨.reset, 5#64⟩, ⟨.reset, 4#64⟩, Event.atEnd] = false ∧ queueWf [⟨.sentinel, 9#64⟩] = false ∧
    queueWf [⟨.reset, 4#64⟩, ⟨.reset, 4#64⟩, Event.atEnd] = true := by decide

theorem test_parts_wf_refuse :
    Params.wf ⟨.nes, .nmosBcd⟩ = false ∧ Cart.wf { Cart.blank with prgBanks := 3 } = false ∧
    Cart.wf { Cart.blank with prgRam := [(0x2000, 1#8)] } = false ∧
    Ppu.wf { Ppu.powerOn with status := 0x40#8 } = false ∧ Ppu.wf { Ppu.powerOn with oam := [(0x100, 1#8)] } = false ∧
    State.wf { State.reset with queue := [] } = false ∧ State.wf { State.reset with ram := [(0x800, 1#8)] } = false ∧
    RamInit.wf ⟨[(0x800, 1#8)], [], [], [], []⟩ .nes = false ∧ RamInit.wf ⟨[], [], [], [(0x20, 1#8)], []⟩ .flat = false ∧
    State.wf State.reset = true ∧ State.wf flatAt = true := by decide +kernel

/-- R58: what aborts construction: a short or wrong header, a mapper nibble in either byte, ROM cut short. -/
def refusal (img : List Byte) : Option LoadError :=
  match Cart.ofImage img with
  | .ok _ => none
  | .error e => some e

theorem test_image_refused :
    refusal [] = some .malformedHeader ∧
    refusal (0x4E#8 :: 0x45#8 :: 0x53#8 :: 0x1B#8 :: List.replicate 12 0#8) = some .malformedHeader ∧
    refusal ([0x4E#8, 0x45#8, 0x53#8, 0x1A#8, 1#8, 1#8, 0x10#8, 0#8] ++ List.replicate 8 0#8) =
      some .unsupportedMapper ∧
    refusal ([0x4E#8, 0x45#8, 0x53#8, 0x1A#8, 1#8, 1#8, 0#8, 0x40#8] ++ List.replicate 8 0#8) =
      some .unsupportedMapper ∧
    refusal ([0x4E#8, 0x45#8, 0x53#8, 0x1A#8, 1#8, 1#8, 0#8, 0#8] ++ List.replicate 8 0#8) = some .truncatedRom := by
  decide +kernel

/-! ## Decoding -/

/-- R67 to R69: one whole instruction of each addressing mode, with a byte that follows it. -/
theorem test_decode_words :
    decode [0xEA#8, 0x99#8] = .ok (⟨.nop, []⟩, [0x99#8]) ∧
    decode [0x0A#8, 0x99#8] = .ok (⟨.aslAcc, []⟩, [0x99#8]) ∧
    decode [0xA2#8, 0x05#8, 0x99#8] = .ok (⟨.ldxImm, [0x05#8]⟩, [0x99#8]) ∧
    decode [0x85#8, 0x10#8, 0x99#8] = .ok (⟨.staZp, [0x10#8]⟩, [0x99#8]) ∧
    decode [0xB5#8, 0xF0#8, 0x99#8] = .ok (⟨.ldaZpx, [0xF0#8]⟩, [0x99#8]) ∧
    decode [0x96#8, 0xF8#8, 0x99#8] = .ok (⟨.stxZpy, [0xF8#8]⟩, [0x99#8]) ∧
    decode [0x8C#8, 0x00#8, 0x20#8, 0x99#8] = .ok (⟨.styAbs, [0x00#8, 0x20#8]⟩, [0x99#8]) ∧
    decode [0x7E#8, 0x00#8, 0x03#8, 0x99#8] = .ok (⟨.rorAbx, [0x00#8, 0x03#8]⟩, [0x99#8]) ∧
    decode [0x59#8, 0x00#8, 0x03#8, 0x99#8] = .ok (⟨.eorAby, [0x00#8, 0x03#8]⟩, [0x99#8]) ∧
    decode [0xA1#8, 0xFE#8, 0x99#8] = .ok (⟨.ldaIzx, [0xFE#8]⟩, [0x99#8]) ∧
    decode [0x91#8, 0x10#8, 0x99#8] = .ok (⟨.staIzy, [0x10#8]⟩, [0x99#8]) ∧
    decode [0x50#8, 0xF0#8, 0x99#8] = .ok (⟨.bvc, [0xF0#8]⟩, [0x99#8]) ∧
    decode [0x6C#8, 0xFF#8, 0x02#8, 0x99#8] = .ok (⟨.jmpInd, [0xFF#8, 0x02#8]⟩, [0x99#8]) ∧
    decode [0x00#8, 0xEA#8] = .ok (⟨.brk, []⟩, [0xEA#8]) ∧
    decode [0x20#8, 0x34#8, 0x12#8] = .ok (⟨.jsr, [0x34#8, 0x12#8]⟩, []) := by
  exact ⟨rfl, rfl, rfl, rfl, rfl, rfl, rfl, rfl, rfl, rfl, rfl, rfl, rfl, rfl, rfl⟩

/-- R68: a list that ends too soon is refused by name. -/
theorem test_decode_refuses :
    decode [] = .error .noOpcode ∧ decode [0xA9#8] = .error .operandsMissing ∧
    decode [0x20#8, 0x34#8] = .error .operandsMissing := by
  exact ⟨rfl, rfl, rfl⟩

/-- The opcode table's numbering of a word, with operand bytes of zeros. -/
theorem test_decode_table_word :
    decodeTableWord 8 0xE8 = some .inx ∧ decodeTableWord 8 0xA9 = some .ldaImm ∧ decodeTableWord 8 0x20 = some .jsr ∧
    decodeTableWord 24 0x1234AD = some .ldaAbs := by
  exact ⟨rfl, rfl, rfl, rfl⟩

/-- Encoding entries of R92 to R94. -/
theorem test_decode_loads :
    decodesTo .LDA [(0xA9#8, .ldaImm, .imm, 2), (0xA5#8, .ldaZp, .zp, 3), (0xB5#8, .ldaZpx, .zpx, 4),
      (0xAD#8, .ldaAbs, .abs, 4), (0xBD#8, .ldaAbx, .abx, 4), (0xB9#8, .ldaAby, .aby, 4), (0xA1#8, .ldaIzx, .izx, 6),
      (0xB1#8, .ldaIzy, .izy, 5)] = true ∧
    decodesTo .LDX [(0xA2#8, .ldxImm, .imm, 2), (0xA6#8, .ldxZp, .zp, 3), (0xB6#8, .ldxZpy, .zpy, 4),
      (0xAE#8, .ldxAbs, .abs, 4), (0xBE#8, .ldxAby, .aby, 4)] = true ∧
    decodesTo .LDY [(0xA0#8, .ldyImm, .imm, 2), (0xA4#8, .ldyZp, .zp, 3), (0xB4#8, .ldyZpx, .zpx, 4),
      (0xAC#8, .ldyAbs, .abs, 4), (0xBC#8, .ldyAbx, .abx, 4)] = true := by decide

/-- Encoding entries of R95 to R97. -/
theorem test_decode_stores :
    decodesTo .STA [(0x85#8, .staZp, .zp, 3), (0x95#8, .staZpx, .zpx, 4), (0x8D#8, .staAbs, .abs, 4),
      (0x9D#8, .staAbx, .abx, 5), (0x99#8, .staAby, .aby, 5), (0x81#8, .staIzx, .izx, 6),
      (0x91#8, .staIzy, .izy, 6)] = true ∧
    decodesTo .STX [(0x86#8, .stxZp, .zp, 3), (0x96#8, .stxZpy, .zpy, 4), (0x8E#8, .stxAbs, .abs, 4)] = true ∧
    decodesTo .STY [(0x84#8, .styZp, .zp, 3), (0x94#8, .styZpx, .zpx, 4), (0x8C#8, .styAbs, .abs, 4)] = true := by decide

/-- Encoding entries of R98 to R103. -/
theorem test_decode_transfers :
    decodesTo .TAX [(0xAA#8, .tax, .imp, 2)] = true ∧
    decodesTo .TAY [(0xA8#8, .tay, .imp, 2)] = true ∧
    decodesTo .TXA [(0x8A#8, .txa, .imp, 2)] = true ∧
    decodesTo .TYA [(0x98#8, .tya, .imp, 2)] = true ∧
    decodesTo .TSX [(0xBA#8, .tsx, .imp, 2)] = true ∧
    decodesTo .TXS [(0x9A#8, .txs, .imp, 2)] = true := by decide

/-- Encoding entries of R111, R112. -/
theorem test_decode_arithmetic :
    decodesTo .ADC [(0x69#8, .adcImm, .imm, 2), (0x65#8, .adcZp, .zp, 3), (0x75#8, .adcZpx, .zpx, 4),
      (0x6D#8, .adcAbs, .abs, 4), (0x7D#8, .adcAbx, .abx, 4), (0x79#8, .adcAby, .aby, 4), (0x61#8, .adcIzx, .izx, 6),
      (0x71#8, .adcIzy, .izy, 5)] = true ∧
    decodesTo .SBC [(0xE9#8, .sbcImm, .imm, 2), (0xE5#8, .sbcZp, .zp, 3), (0xF5#8, .sbcZpx, .zpx, 4),
      (0xED#8, .sbcAbs, .abs, 4), (0xFD#8, .sbcAbx, .abx, 4), (0xF9#8, .sbcAby, .aby, 4), (0xE1#8, .sbcIzx, .izx, 6),
      (0xF1#8, .sbcIzy, .izy, 5)] = true := by decide

/-- Encoding entries of R113 to R116. -/
theorem test_decode_logic :
    decodesTo .AND [(0x29#8, .andImm, .imm, 2), (0x25#8, .andZp, .zp, 3), (0x35#8, .andZpx, .zpx, 4),
      (0x2D#8, .andAbs, .abs, 4), (0x3D#8, .andAbx, .abx, 4), (0x39#8, .andAby, .aby, 4), (0x21#8, .andIzx, .izx, 6),
      (0x31#8, .andIzy, .izy, 5)] = true ∧
    decodesTo .ORA [(0x09#8, .oraImm, .imm, 2), (0x05#8, .oraZp, .zp, 3), (0x15#8, .oraZpx, .zpx, 4),
      (0x0D#8, .oraAbs, .abs, 4), (0x1D#8, .oraAbx, .abx, 4), (0x19#8, .oraAby, .aby, 4), (0x01#8, .oraIzx, .izx, 6),
      (0x11#8, .oraIzy, .izy, 5)] = true ∧
    decodesTo .EOR [(0x49#8, .eorImm, .imm, 2), (0x45#8, .eorZp, .zp, 3), (0x55#8, .eorZpx, .zpx, 4),
      (0x4D#8, .eorAbs, .abs, 4), (0x5D#8, .eorAbx, .abx, 4), (0x59#8, .eorAby, .aby, 4), (0x41#8, .eorIzx, .izx, 6),
      (0x51#8, .eorIzy, .izy, 5)] = true ∧
    decodesTo .BIT [(0x24#8, .bitZp, .zp, 3), (0x2C#8, .bitAbs, .abs, 4)] = true := by decide

/-- Encoding entries of R117 to R119. -/
theorem test_decode_compares :
    decodesTo .CMP [(0xC9#8, .cmpImm, .imm, 2), (0xC5#8, .cmpZp, .zp, 3), (0xD5#8, .cmpZpx, .zpx, 4),
      (0xCD#8, .cmpAbs, .abs, 4), (0xDD#8, .cmpAbx, .abx, 4), (0xD9#8, .cmpAby, .aby, 4), (0xC1#8, .cmpIzx, .izx, 6),
      (0xD1#8, .cmpIzy, .izy, 5)] = true ∧
    decodesTo .CPX [(0xE0#8, .cpxImm, .imm, 2), (0xE4#8, .cpxZp, .zp, 3), (0xEC#8, .cpxAbs, .abs, 4)] = true ∧
    decodesTo .CPY [(0xC0#8, .cpyImm, .imm, 2), (0xC4#8, .cpyZp, .zp, 3), (0xCC#8, .cpyAbs, .abs, 4)] = true := by decide

/-- Encoding entries of R120 to R123. -/
theorem test_decode_shifts :
    decodesTo .ASL [(0x0A#8, .aslAcc, .acc, 2), (0x06#8, .aslZp, .zp, 5), (0x16#8, .aslZpx, .zpx, 6),
      (0x0E#8, .aslAbs, .abs, 6), (0x1E#8, .aslAbx, .abx, 7)] = true ∧
    decodesTo .LSR [(0x4A#8, .lsrAcc, .acc, 2), (0x46#8, .lsrZp, .zp, 5), (0x56#8, .lsrZpx, .zpx, 6),
      (0x4E#8, .lsrAbs, .abs, 6), (0x5E#8, .lsrAbx, .abx, 7)] = true ∧
    decodesTo .ROL [(0x2A#8, .rolAcc, .acc, 2), (0x26#8, .rolZp, .zp, 5), (0x36#8, .rolZpx, .zpx, 6),
      (0x2E#8, .rolAbs, .abs, 6), (0x3E#8, .rolAbx, .abx, 7)] = true ∧
    decodesTo .ROR [(0x6A#8, .rorAcc, .acc, 2), (0x66#8, .rorZp, .zp, 5), (0x76#8, .rorZpx, .zpx, 6),
      (0x6E#8, .rorAbs, .abs, 6), (0x7E#8, .rorAbx, .abx, 7)] = true := by decide

/-- Encoding entries of R124 to R129. -/
theorem test_decode_steps :
    decodesTo .INC [(0xE6#8, .incZp, .zp, 5), (0xF6#8, .incZpx, .zpx, 6), (0xEE#8, .incAbs, .abs, 6),
      (0xFE#8, .incAbx, .abx, 7)] = true ∧
    decodesTo .DEC [(0xC6#8, .decZp, .zp, 5), (0xD6#8, .decZpx, .zpx, 6), (0xCE#8, .decAbs, .abs, 6),
      (0xDE#8, .decAbx, .abx, 7)] = true ∧
    decodesTo .INX [(0xE8#8, .inx, .imp, 2)] = true ∧
    decodesTo .INY [(0xC8#8, .iny, .imp, 2)] = true ∧
    decodesTo .DEX [(0xCA#8, .dex, .imp, 2)] = true ∧
    decodesTo .DEY [(0x88#8, .dey, .imp, 2)] = true := by decide

/-- Encoding entries of R131 to R138. -/
theorem test_decode_branches :
    decodesTo .BPL [(0x10#8, .bpl, .rel, 2)] = true ∧
    decodesTo .BMI [(0x30#8, .bmi, .rel, 2)] = true ∧
    decodesTo .BVC [(0x50#8, .bvc, .rel, 2)] = true ∧
    decodesTo .BVS [(0x70#8, .bvs, .rel, 2)] = true ∧
    decodesTo .BCC [(0x90#8, .bcc, .rel, 2)] = true ∧
    decodesTo .BCS [(0xB0#8, .bcs, .rel, 2)] = true ∧
    decodesTo .BNE [(0xD0#8, .bne, .rel, 2)] = true ∧
    decodesTo .BEQ [(0xF0#8, .beq, .rel, 2)] = true := by decide

/-- Encoding entries of R139 to R143. -/
theorem test_decode_control :
    decodesTo .JMP [(0x4C#8, .jmpAbs, .abs, 3), (0x6C#8, .jmpInd, .ind, 5)] = true ∧
    decodesTo .JSR [(0x20#8, .jsr, .abs, 6)] = true ∧
    decodesTo .RTS [(0x60#8, .rts, .imp, 6)] = true ∧
    decodesTo .RTI [(0x40#8, .rti, .imp, 6)] = true ∧
    decodesTo .BRK [(0x00#8, .brk, .imp, 7)] = true := by decide

/-- Encoding entries of R144 to R147. -/
theorem test_decode_stack :
    decodesTo .PHA [(0x48#8, .pha, .imp, 3)] = true ∧
    decodesTo .PHP [(0x08#8, .php, .imp, 3)] = true ∧
    decodesTo .PLA [(0x68#8, .pla, .imp, 4)] = true ∧
    decodesTo .PLP [(0x28#8, .plp, .imp, 4)] = true := by decide

/-- Encoding entries of R148 to R155. -/
theorem test_decode_flags :
    decodesTo .CLC [(0x18#8, .clc, .imp, 2)] = true ∧
    decodesTo .SEC [(0x38#8, .sec, .imp, 2)] = true ∧
    decodesTo .CLI [(0x58#8, .cli, .imp, 2)] = true ∧
    decodesTo .SEI [(0x78#8, .sei, .imp, 2)] = true ∧
    decodesTo .CLD [(0xD8#8, .cld, .imp, 2)] = true ∧
    decodesTo .SED [(0xF8#8, .sed, .imp, 2)] = true ∧
    decodesTo .CLV [(0xB8#8, .clv, .imp, 2)] = true ∧
    decodesTo .NOP [(0xEA#8, .nop, .imp, 2)] = true := by decide

/-- Encoding entries of R157 to R162. -/
theorem test_decode_combined :
    decodesTo .SLO [(0x03#8, .sloIzx, .izx, 8), (0x07#8, .sloZp, .zp, 5), (0x0F#8, .sloAbs, .abs, 6),
      (0x13#8, .sloIzy, .izy, 8), (0x17#8, .sloZpx, .zpx, 6), (0x1B#8, .sloAby, .aby, 7),
      (0x1F#8, .sloAbx, .abx, 7)] = true ∧
    decodesTo .RLA [(0x23#8, .rlaIzx, .izx, 8), (0x27#8, .rlaZp, .zp, 5), (0x2F#8, .rlaAbs, .abs, 6),
      (0x33#8, .rlaIzy, .izy, 8), (0x37#8, .rlaZpx, .zpx, 6), (0x3B#8, .rlaAby, .aby, 7),
      (0x3F#8, .rlaAbx, .abx, 7)] = true ∧
    decodesTo .SRE [(0x43#8, .sreIzx, .izx, 8), (0x47#8, .sreZp, .zp, 5), (0x4F#8, .sreAbs, .abs, 6),
      (0x53#8, .sreIzy, .izy, 8), (0x57#8, .sreZpx, .zpx, 6), (0x5B#8, .sreAby, .aby, 7),
      (0x5F#8, .sreAbx, .abx, 7)] = true ∧
    decodesTo .RRA [(0x63#8, .rraIzx, .izx, 8), (0x67#8, .rraZp, .zp, 5), (0x6F#8, .rraAbs, .abs, 6),
      (0x73#8, .rraIzy, .izy, 8), (0x77#8, .rraZpx, .zpx, 6), (0x7B#8, .rraAby, .aby, 7),
      (0x7F#8, .rraAbx, .abx, 7)] = true ∧
    decodesTo .DCP [(0xC3#8, .dcpIzx, .izx, 8), (0xC7#8, .dcpZp, .zp, 5), (0xCF#8, .dcpAbs, .abs, 6),
      (0xD3#8, .dcpIzy, .izy, 8), (0xD7#8, .dcpZpx, .zpx, 6), (0xDB#8, .dcpAby, .aby, 7),
      (0xDF#8, .dcpAbx, .abx, 7)] = true ∧
    decodesTo .ISB [(0xE3#8, .isbIzx, .izx, 8), (0xE7#8, .isbZp, .zp, 5), (0xEF#8, .isbAbs, .abs, 6),
      (0xF3#8, .isbIzy, .izy, 8), (0xF7#8, .isbZpx, .zpx, 6), (0xFB#8, .isbAby, .aby, 7),
      (0xFF#8, .isbAbx, .abx, 7)] = true := by decide

/-- Encoding entries of R163 to R165. -/
theorem test_decode_undocumented_memory :
    decodesTo .SAX [(0x83#8, .saxIzx, .izx, 6), (0x87#8, .saxZp, .zp, 3), (0x8F#8, .saxAbs, .abs, 4),
      (0x97#8, .saxZpy, .zpy, 4)] = true ∧
    decodesTo .LAX [(0xA3#8, .laxIzx, .izx, 6), (0xA7#8, .laxZp, .zp, 3), (0xAF#8, .laxAbs, .abs, 4),
      (0xB3#8, .laxIzy, .izy, 5), (0xB7#8, .laxZpy, .zpy, 4), (0xBF#8, .laxAby, .aby, 4)] = true ∧
    decodesTo .LAS [(0xBB#8, .lasAby, .aby, 4)] = true := by decide

/-- Encoding entries of R166 to R172. -/
theorem test_decode_undocumented_immediate :
    decodesTo .ANC [(0x0B#8, .ancImm0B, .imm, 2), (0x2B#8, .ancImm2B, .imm, 2)] = true ∧
    decodesTo .ALR [(0x4B#8, .alrImm, .imm, 2)] = true ∧
    decodesTo .ARR [(0x6B#8, .arrImm, .imm, 2)] = true ∧
    decodesTo .ANE [(0x8B#8, .aneImm, .imm, 2)] = true ∧
    decodesTo .LXA [(0xAB#8, .lxaImm, .imm, 2)] = true ∧
    decodesTo .SBX [(0xCB#8, .sbxImm, .imm, 2)] = true ∧
    decodesTo .USBC [(0xEB#8, .usbcImm, .imm, 2)] = true := by decide

/-- Encoding entries of R174 to R177. -/
theorem test_decode_high_and_stores :
    decodesTo .SHA [(0x93#8, .shaIzy, .izy, 6), (0x9F#8, .shaAby, .aby, 5)] = true ∧
    decodesTo .SHX [(0x9E#8, .shxAby, .aby, 5)] = true ∧
    decodesTo .SHY [(0x9C#8, .shyAbx, .abx, 5)] = true ∧
    decodesTo .TAS [(0x9B#8, .tasAby, .aby, 5)] = true := by decide

/-- Encoding entries of R178. -/
theorem test_decode_undocumented_nops :
    decodesTo .NOP [(0x1A#8, .nopImp1A, .imp, 2), (0x3A#8, .nopImp3A, .imp, 2), (0x5A#8, .nopImp5A, .imp, 2),
      (0x7A#8, .nopImp7A, .imp, 2), (0xDA#8, .nopImpDA, .imp, 2), (0xFA#8, .nopImpFA, .imp, 2),
      (0x80#8, .nopImm80, .imm, 2), (0x82#8, .nopImm82, .imm, 2), (0x89#8, .nopImm89, .imm, 2),
      (0xC2#8, .nopImmC2, .imm, 2), (0xE2#8, .nopImmE2, .imm, 2), (0x04#8, .nopZp04, .zp, 3),
      (0x44#8, .nopZp44, .zp, 3), (0x64#8, .nopZp64, .zp, 3), (0x14#8, .nopZpx14, .zpx, 4),
      (0x34#8, .nopZpx34, .zpx, 4), (0x54#8, .nopZpx54, .zpx, 4), (0x74#8, .nopZpx74, .zpx, 4),
      (0xD4#8, .nopZpxD4, .zpx, 4), (0xF4#8, .nopZpxF4, .zpx, 4), (0x0C#8, .nopAbs, .abs, 4),
      (0x1C#8, .nopAbx1C, .abx, 4), (0x3C#8, .nopAbx3C, .abx, 4), (0x5C#8, .nopAbx5C, .abx, 4),
      (0x7C#8, .nopAbx7C, .abx, 4), (0xDC#8, .nopAbxDC, .abx, 4), (0xFC#8, .nopAbxFC, .abx, 4)] = true := by decide

/-- Encoding entries of R179. -/
theorem test_decode_jams :
    decodesTo .JAM [(0x02#8, .jam02, .imp, 2), (0x12#8, .jam12, .imp, 2), (0x22#8, .jam22, .imp, 2),
      (0x32#8, .jam32, .imp, 2), (0x42#8, .jam42, .imp, 2), (0x52#8, .jam52, .imp, 2), (0x62#8, .jam62, .imp, 2),
      (0x72#8, .jam72, .imp, 2), (0x92#8, .jam92, .imp, 2), (0xB2#8, .jamB2, .imp, 2), (0xD2#8, .jamD2, .imp, 2),
      (0xF2#8, .jamF2, .imp, 2)] = true := by decide

/-- The access classes of the opcode table (R73). -/
theorem test_access_classes :
    opcodeRow0.map Instr.accessClass = [.stack, .read, .implied, .rmw, .read, .read, .rmw, .rmw,
      .stack, .read, .implied, .read, .read, .read, .rmw, .rmw] ∧
    opcodeRow1.map Instr.accessClass = [.branch, .read, .implied, .rmw, .read, .read, .rmw, .rmw,
      .implied, .read, .implied, .rmw, .read, .read, .rmw, .rmw] ∧
    opcodeRow2.map Instr.accessClass = [.stack, .read, .implied, .rmw, .read, .read, .rmw, .rmw,
      .stack, .read, .implied, .read, .read, .read, .rmw, .rmw] ∧
    opcodeRow3.map Instr.accessClass = [.branch, .read, .implied, .rmw, .read, .read, .rmw, .rmw,
      .implied, .read, .implied, .rmw, .read, .read, .rmw, .rmw] ∧
    opcodeRow4.map Instr.accessClass = [.stack, .read, .implied, .rmw, .read, .read, .rmw, .rmw,
      .stack, .read, .implied, .read, .jump, .read, .rmw, .rmw] ∧
    opcodeRow5.map Instr.accessClass = [.branch, .read, .implied, .rmw, .read, .read, .rmw, .rmw,
      .implied, .read, .implied, .rmw, .read, .read, .rmw, .rmw] ∧
    opcodeRow6.map Instr.accessClass = [.stack, .read, .implied, .rmw, .read, .read, .rmw, .rmw,
      .stack, .read, .implied, .read, .jump, .read, .rmw, .rmw] ∧
    opcodeRow7.map Instr.accessClass = [.branch, .read, .implied, .rmw, .read, .read, .rmw, .rmw,
      .implied, .read, .implied, .rmw, .read, .read, .rmw, .rmw] ∧
    opcodeRow8.map Instr.accessClass = [.read, .write, .read, .write, .write, .write, .write, .write,
      .implied, .read, .implied, .read, .write, .write, .write, .write] ∧
    opcodeRow9.map Instr.accessClass = [.branch, .write, .implied, .write, .write, .write, .write, .write,
      .implied, .write, .implied, .write, .write, .write, .write, .write] ∧
    opcodeRowA.map Instr.accessClass = [.read, .read, .read, .read, .read, .read, .read, .read,
      .implied, .read, .implied, .read, .read, .read, .read, .read] ∧
    opcodeRowB.map Instr.accessClass = [.branch, .read, .implied, .read, .read, .read, .read, .read,
      .implied, .read, .implied, .read, .read, .read, .read, .read] ∧
    opcodeRowC.map Instr.accessClass = [.read, .read, .read, .rmw, .read, .read, .rmw, .rmw,
      .implied, .read, .implied, .read, .read, .read, .rmw, .rmw] ∧
    opcodeRowD.map Instr.accessClass = [.branch, .read, .implied, .rmw, .read, .read, .rmw, .rmw,
      .implied, .read, .implied, .rmw, .read, .read, .rmw, .rmw] ∧
    opcodeRowE.map Instr.accessClass = [.read, .read, .read, .rmw, .read, .read, .rmw, .rmw,
      .implied, .read, .implied, .read, .read, .read, .rmw, .rmw] ∧
    opcodeRowF.map Instr.accessClass = [.branch, .read, .implied, .rmw, .read, .read, .rmw, .rmw,
      .implied, .read, .implied, .rmw, .read, .read, .rmw, .rmw] := by decide

/-! ## One step: parts 2 and 3 of 95_test_vectors.md, one or two vectors an instruction -/

/-- LS2: LDA # negative. -/
theorem test_LS2 : endsIn (loaded .binary 0x12#8 0x00#8 0x00#8 0xFD#8 0x20#8 0x0200#16
      [0xA9#8, 0x80#8] [])
    0x80#8 0x00#8 0x00#8 0xFD#8 0xA0#8 0x0202#16 2 []
    [] = true := by decide

/-- LS7: LDA abs,X page cross. -/
theorem test_LS7 : endsIn (loaded .binary 0x00#8 0x20#8 0x00#8 0xFD#8 0x20#8 0x0200#16
      [0xBD#8, 0xF0#8, 0x12#8] [(0x1210#16, 0x11#8), (0x1310#16, 0x66#8)])
    0x66#8 0x20#8 0x00#8 0xFD#8 0x20#8 0x0203#16 5 []
    [(.read, 0x0200#16, 0xBD#8), (.read, 0x0201#16, 0xF0#8), (.read, 0x0202#16, 0x12#8),
      (.read, 0x1210#16, 0x11#8), (.read, 0x1310#16, 0x66#8)] = true := by decide

/-- LS12: LDX zp,Y. -/
theorem test_LS12 : endsIn (loaded .binary 0x00#8 0x00#8 0x01#8 0xFD#8 0x20#8 0x0200#16
      [0xB6#8, 0xFF#8] [(0x0000#16, 0x00#8)])
    0x00#8 0x00#8 0x01#8 0xFD#8 0x22#8 0x0202#16 4 []
    [] = true := by decide

/-- LS14: LDY abs,X page cross. -/
theorem test_LS14 : endsIn (loaded .binary 0x00#8 0x20#8 0x00#8 0xFD#8 0x20#8 0x0200#16
      [0xBC#8, 0xF0#8, 0x12#8] [(0x1310#16, 0x01#8)])
    0x00#8 0x20#8 0x01#8 0xFD#8 0x20#8 0x0203#16 5 []
    [] = true := by decide

/-- LS15: LDY #. -/
theorem test_LS15 : endsIn (loaded .binary 0x00#8 0x00#8 0x00#8 0xFD#8 0x20#8 0x0200#16
      [0xA0#8, 0xFF#8] [])
    0x00#8 0x00#8 0xFF#8 0xFD#8 0xA0#8 0x0202#16 2 []
    [] = true := by decide

/-- LS17: STA abs,X page cross. -/
theorem test_LS17 : endsIn (loaded .binary 0x5A#8 0x01#8 0x00#8 0xFD#8 0x20#8 0x0200#16
      [0x9D#8, 0xFF#8, 0x02#8] [])
    0x5A#8 0x01#8 0x00#8 0xFD#8 0x20#8 0x0203#16 5 [(0x0300#16, 0x5A#8)]
    [(.read, 0x0200#16, 0x9D#8), (.read, 0x0201#16, 0xFF#8), (.read, 0x0202#16, 0x02#8),
      (.read, 0x0200#16, 0x9D#8), (.write, 0x0300#16, 0x5A#8)] = true := by decide

/-- LS18: STA (zp),Y. -/
theorem test_LS18 : endsIn (loaded .binary 0x42#8 0x00#8 0x04#8 0xFD#8 0x20#8 0x0200#16
      [0x91#8, 0x10#8] [(0x0010#16, 0x00#8), (0x0011#16, 0x04#8)])
    0x42#8 0x00#8 0x04#8 0xFD#8 0x20#8 0x0202#16 6 [(0x0404#16, 0x42#8)]
    [(.read, 0x0200#16, 0x91#8), (.read, 0x0201#16, 0x10#8), (.read, 0x0010#16, 0x00#8),
      (.read, 0x0011#16, 0x04#8), (.read, 0x0404#16, 0x00#8), (.write, 0x0404#16, 0x42#8)] = true := by decide

/-- LS20: STX zp,Y wraps. -/
theorem test_LS20 : endsIn (loaded .binary 0x00#8 0x77#8 0x10#8 0xFD#8 0x20#8 0x0200#16
      [0x96#8, 0xF8#8] [])
    0x00#8 0x77#8 0x10#8 0xFD#8 0x20#8 0x0202#16 4 [(0x0008#16, 0x77#8)]
    [] = true := by decide

/-- LS21: STY abs. -/
theorem test_LS21 : endsIn (loaded .binary 0x00#8 0x00#8 0x01#8 0xFD#8 0x20#8 0x0200#16
      [0x8C#8, 0x00#8, 0x04#8] [])
    0x00#8 0x00#8 0x01#8 0xFD#8 0x20#8 0x0203#16 4 [(0x0400#16, 0x01#8)]
    [] = true := by decide

/-- LS23: TAX zero. -/
theorem test_LS23 : endsIn (loaded .binary 0x00#8 0x33#8 0x00#8 0xFD#8 0x20#8 0x0200#16
      [0xAA#8] [])
    0x00#8 0x00#8 0x00#8 0xFD#8 0x22#8 0x0201#16 2 []
    [] = true := by decide

/-- LS24: TAY negative. -/
theorem test_LS24 : endsIn (loaded .binary 0xC0#8 0x00#8 0x00#8 0xFD#8 0x20#8 0x0200#16
      [0xA8#8] [])
    0xC0#8 0x00#8 0xC0#8 0xFD#8 0xA0#8 0x0201#16 2 []
    [] = true := by decide

/-- LS25: TXA. -/
theorem test_LS25 : endsIn (loaded .binary 0x00#8 0x7F#8 0x00#8 0xFD#8 0x20#8 0x0200#16
      [0x8A#8] [])
    0x7F#8 0x7F#8 0x00#8 0xFD#8 0x20#8 0x0201#16 2 []
    [] = true := by decide

/-- LS26: TYA. -/
theorem test_LS26 : endsIn (loaded .binary 0x00#8 0x00#8 0x80#8 0xFD#8 0x20#8 0x0200#16
      [0x98#8] [])
    0x80#8 0x00#8 0x80#8 0xFD#8 0xA0#8 0x0201#16 2 []
    [] = true := by decide

/-- LS27: TSX. -/
theorem test_LS27 : endsIn (loaded .binary 0x00#8 0x00#8 0x00#8 0xFD#8 0x20#8 0x0200#16
      [0xBA#8] [])
    0x00#8 0xFD#8 0x00#8 0xFD#8 0xA0#8 0x0201#16 2 []
    [] = true := by decide

/-- LS28: TXS leaves N, Z. -/
theorem test_LS28 : endsIn (loaded .binary 0x00#8 0x00#8 0x00#8 0xFD#8 0xA0#8 0x0200#16
      [0x9A#8] [])
    0x00#8 0x00#8 0x00#8 0x00#8 0xA0#8 0x0201#16 2 []
    [] = true := by decide

/-- AL3: ADC -128 + -128. -/
theorem test_AL3 : endsIn (loaded .binary 0x80#8 0x00#8 0x00#8 0xFD#8 0x20#8 0x0200#16
      [0x69#8, 0x80#8] [])
    0x00#8 0x00#8 0x00#8 0xFD#8 0x63#8 0x0202#16 2 []
    [] = true := by decide

/-- BC4: ADC 79+00+1 (N, V from intermediate). -/
theorem test_BC4 : endsIn (loaded .nmosBcd 0x79#8 0x00#8 0x00#8 0xFD#8 0x29#8 0x0200#16
      [0x69#8, 0x00#8] [])
    0x80#8 0x00#8 0x00#8 0xFD#8 0xE8#8 0x0202#16 2 []
    [] = true := by decide

/-- AL7: SBC -128 - 1 overflow. -/
theorem test_AL7 : endsIn (loaded .binary 0x80#8 0x00#8 0x00#8 0xFD#8 0x21#8 0x0200#16
      [0xE9#8, 0x01#8] [])
    0x7F#8 0x00#8 0x00#8 0xFD#8 0x61#8 0x0202#16 2 []
    [] = true := by decide

/-- BC5: SBC 00-01. -/
theorem test_BC5 : endsIn (loaded .nmosBcd 0x00#8 0x00#8 0x00#8 0xFD#8 0x29#8 0x0200#16
      [0xE9#8, 0x01#8] [])
    0x99#8 0x00#8 0x00#8 0xFD#8 0xA8#8 0x0202#16 2 []
    [] = true := by decide

/-- AL11: AND to zero. -/
theorem test_AL11 : endsIn (loaded .binary 0xF0#8 0x00#8 0x00#8 0xFD#8 0x20#8 0x0200#16
      [0x29#8, 0x0F#8] [])
    0x00#8 0x00#8 0x00#8 0xFD#8 0x22#8 0x0202#16 2 []
    [] = true := by decide

/-- AL12: ORA. -/
theorem test_AL12 : endsIn (loaded .binary 0x0F#8 0x00#8 0x00#8 0xFD#8 0x20#8 0x0200#16
      [0x09#8, 0x80#8] [])
    0x8F#8 0x00#8 0x00#8 0xFD#8 0xA0#8 0x0202#16 2 []
    [] = true := by decide

/-- AL13: EOR abs,Y. -/
theorem test_AL13 : endsIn (loaded .binary 0xFF#8 0x00#8 0x01#8 0xFD#8 0x20#8 0x0200#16
      [0x59#8, 0x00#8, 0x03#8] [(0x0301#16, 0xFF#8)])
    0x00#8 0x00#8 0x01#8 0xFD#8 0x22#8 0x0203#16 4 []
    [] = true := by decide

/-- AL14: BIT sets V, N from memory, Z from A&m. -/
theorem test_AL14 : endsIn (loaded .binary 0x01#8 0x00#8 0x00#8 0xFD#8 0x20#8 0x0200#16
      [0x24#8, 0x10#8] [(0x0010#16, 0xC0#8)])
    0x01#8 0x00#8 0x00#8 0xFD#8 0xE2#8 0x0202#16 3 []
    [] = true := by decide

/-- AL17: CMP less. -/
theorem test_AL17 : endsIn (loaded .binary 0x40#8 0x00#8 0x00#8 0xFD#8 0x20#8 0x0200#16
      [0xC9#8, 0x41#8] [])
    0x40#8 0x00#8 0x00#8 0xFD#8 0xA0#8 0x0202#16 2 []
    [] = true := by decide

/-- AL19: CPX. -/
theorem test_AL19 : endsIn (loaded .binary 0x00#8 0x10#8 0x00#8 0xFD#8 0x20#8 0x0200#16
      [0xE0#8, 0x10#8] [])
    0x00#8 0x10#8 0x00#8 0xFD#8 0x23#8 0x0202#16 2 []
    [] = true := by decide

/-- AL20: CPY zp. -/
theorem test_AL20 : endsIn (loaded .binary 0x00#8 0x00#8 0x00#8 0xFD#8 0x20#8 0x0200#16
      [0xC4#8, 0x10#8] [(0x0010#16, 0x01#8)])
    0x00#8 0x00#8 0x00#8 0xFD#8 0xA0#8 0x0202#16 3 []
    [] = true := by decide

/-- AL22: ASL zp: RMW writes old then new. -/
theorem test_AL22 : endsIn (loaded .binary 0x00#8 0x00#8 0x00#8 0xFD#8 0x20#8 0x0200#16
      [0x06#8, 0x10#8] [(0x0010#16, 0x80#8)])
    0x00#8 0x00#8 0x00#8 0xFD#8 0x23#8 0x0202#16 5 [(0x0010#16, 0x00#8)]
    [(.read, 0x0200#16, 0x06#8), (.read, 0x0201#16, 0x10#8), (.read, 0x0010#16, 0x80#8),
      (.write, 0x0010#16, 0x80#8), (.write, 0x0010#16, 0x00#8)] = true := by decide

/-- AL23: LSR A to zero. -/
theorem test_AL23 : endsIn (loaded .binary 0x01#8 0x00#8 0x00#8 0xFD#8 0x20#8 0x0200#16
      [0x4A#8] [])
    0x00#8 0x00#8 0x00#8 0xFD#8 0x23#8 0x0201#16 2 []
    [] = true := by decide

/-- AL24: ROL A through C. -/
theorem test_AL24 : endsIn (loaded .binary 0x40#8 0x00#8 0x00#8 0xFD#8 0x21#8 0x0200#16
      [0x2A#8] [])
    0x81#8 0x00#8 0x00#8 0xFD#8 0xA0#8 0x0201#16 2 []
    [] = true := by decide

/-- AL25: ROR abs,X (7 cycles, no cross). -/
theorem test_AL25 : endsIn (loaded .binary 0x00#8 0x01#8 0x00#8 0xFD#8 0x21#8 0x0200#16
      [0x7E#8, 0x00#8, 0x03#8] [(0x0301#16, 0x02#8)])
    0x00#8 0x01#8 0x00#8 0xFD#8 0xA0#8 0x0203#16 7 [(0x0301#16, 0x81#8)]
    [(.read, 0x0200#16, 0x7E#8), (.read, 0x0201#16, 0x00#8), (.read, 0x0202#16, 0x03#8),
      (.read, 0x0301#16, 0x02#8), (.read, 0x0301#16, 0x02#8), (.write, 0x0301#16, 0x02#8),
      (.write, 0x0301#16, 0x81#8)] = true := by decide

/-- AL26: INC wraps to 0. -/
theorem test_AL26 : endsIn (loaded .binary 0x00#8 0x00#8 0x00#8 0xFD#8 0x20#8 0x0200#16
      [0xEE#8, 0x00#8, 0x03#8] [(0x0300#16, 0xFF#8)])
    0x00#8 0x00#8 0x00#8 0xFD#8 0x22#8 0x0203#16 6 [(0x0300#16, 0x00#8)]
    [] = true := by decide

/-- AL27: DEC 0 to 0xFF. -/
theorem test_AL27 : endsIn (loaded .binary 0x00#8 0x00#8 0x00#8 0xFD#8 0x20#8 0x0200#16
      [0xC6#8, 0x10#8] [(0x0010#16, 0x00#8)])
    0x00#8 0x00#8 0x00#8 0xFD#8 0xA0#8 0x0202#16 5 [(0x0010#16, 0xFF#8)]
    [] = true := by decide

/-- AL28: INX to 0x80. -/
theorem test_AL28 : endsIn (loaded .binary 0x00#8 0x7F#8 0x00#8 0xFD#8 0x20#8 0x0200#16
      [0xE8#8] [])
    0x00#8 0x80#8 0x00#8 0xFD#8 0xA0#8 0x0201#16 2 []
    [] = true := by decide

/-- AL29: INY wraps. -/
theorem test_AL29 : endsIn (loaded .binary 0x00#8 0x00#8 0xFF#8 0xFD#8 0x20#8 0x0200#16
      [0xC8#8] [])
    0x00#8 0x00#8 0x00#8 0xFD#8 0x22#8 0x0201#16 2 []
    [] = true := by decide

/-- AL30: DEX to zero. -/
theorem test_AL30 : endsIn (loaded .binary 0x00#8 0x01#8 0x00#8 0xFD#8 0x20#8 0x0200#16
      [0xCA#8] [])
    0x00#8 0x00#8 0x00#8 0xFD#8 0x22#8 0x0201#16 2 []
    [] = true := by decide

/-- AL31: DEY wraps. -/
theorem test_AL31 : endsIn (loaded .binary 0x00#8 0x00#8 0x00#8 0xFD#8 0x20#8 0x0200#16
      [0x88#8] [])
    0x00#8 0x00#8 0xFF#8 0xFD#8 0xA0#8 0x0201#16 2 []
    [] = true := by decide

/-- CT1: BPL taken, same page. -/
theorem test_CT1 : endsIn (loaded .binary 0x00#8 0x00#8 0x00#8 0xFD#8 0x20#8 0x0200#16
      [0x10#8, 0x0E#8] [])
    0x00#8 0x00#8 0x00#8 0xFD#8 0x20#8 0x0210#16 3 []
    [] = true := by decide

/-- CT2: BMI not taken. -/
theorem test_CT2 : endsIn (loaded .binary 0x00#8 0x00#8 0x00#8 0xFD#8 0x20#8 0x0200#16
      [0x30#8, 0x0E#8] [])
    0x00#8 0x00#8 0x00#8 0xFD#8 0x20#8 0x0202#16 2 []
    [] = true := by decide

/-- CT3: BVC taken backward across page. -/
theorem test_CT3 : endsIn (loaded .binary 0x00#8 0x00#8 0x00#8 0xFD#8 0x20#8 0x0300#16
      [0x50#8, 0xF0#8] [])
    0x00#8 0x00#8 0x00#8 0xFD#8 0x20#8 0x02F2#16 4 []
    [(.read, 0x0300#16, 0x50#8), (.read, 0x0301#16, 0xF0#8), (.read, 0x0302#16, 0x00#8), (.read, 0x03F2#16, 0x00#8)] = true := by decide

/-- CT4: BVS taken offset 0. -/
theorem test_CT4 : endsIn (loaded .binary 0x00#8 0x00#8 0x00#8 0xFD#8 0x60#8 0x0200#16
      [0x70#8, 0x00#8] [])
    0x00#8 0x00#8 0x00#8 0xFD#8 0x60#8 0x0202#16 3 []
    [] = true := by decide

/-- CT5: BCC taken forward across page. -/
theorem test_CT5 : endsIn (loaded .binary 0x00#8 0x00#8 0x00#8 0xFD#8 0x20#8 0x02F0#16
      [0x90#8, 0x20#8] [])
    0x00#8 0x00#8 0x00#8 0xFD#8 0x20#8 0x0312#16 4 []
    [(.read, 0x02F0#16, 0x90#8), (.read, 0x02F1#16, 0x20#8), (.read, 0x02F2#16, 0x00#8), (.read, 0x0212#16, 0x00#8)] = true := by decide

/-- CT6: BCS taken max forward. -/
theorem test_CT6 : endsIn (loaded .binary 0x00#8 0x00#8 0x00#8 0xFD#8 0x21#8 0x0200#16
      [0xB0#8, 0x7F#8] [])
    0x00#8 0x00#8 0x00#8 0xFD#8 0x21#8 0x0281#16 3 []
    [] = true := by decide

/-- CT7: BNE taken max backward. -/
theorem test_CT7 : endsIn (loaded .binary 0x00#8 0x00#8 0x00#8 0xFD#8 0x20#8 0x0200#16
      [0xD0#8, 0x80#8] [])
    0x00#8 0x00#8 0x00#8 0xFD#8 0x20#8 0x0182#16 4 []
    [] = true := by decide

/-- CT8: BEQ not taken. -/
theorem test_CT8 : endsIn (loaded .binary 0x00#8 0x00#8 0x00#8 0xFD#8 0x20#8 0x0200#16
      [0xF0#8, 0x0E#8] [])
    0x00#8 0x00#8 0x00#8 0xFD#8 0x20#8 0x0202#16 2 []
    [] = true := by decide

/-- CT10: JMP abs. -/
theorem test_CT10 : endsIn (loaded .binary 0x00#8 0x00#8 0x00#8 0xFD#8 0x20#8 0x0200#16
      [0x4C#8, 0x34#8, 0x12#8] [])
    0x00#8 0x00#8 0x00#8 0xFD#8 0x20#8 0x1234#16 3 []
    [] = true := by decide

/-- CT11: JMP (ind) page-wrap bug. -/
theorem test_CT11 : endsIn (loaded .binary 0x00#8 0x00#8 0x00#8 0xFD#8 0x20#8 0x0400#16
      [0x6C#8, 0xFF#8, 0x02#8] [(0x0200#16, 0x12#8), (0x02FF#16, 0x34#8), (0x0300#16, 0x56#8)])
    0x00#8 0x00#8 0x00#8 0xFD#8 0x20#8 0x1234#16 5 []
    [(.read, 0x0400#16, 0x6C#8), (.read, 0x0401#16, 0xFF#8), (.read, 0x0402#16, 0x02#8),
      (.read, 0x02FF#16, 0x34#8), (.read, 0x0200#16, 0x12#8)] = true := by decide

/-- CT12: JSR. -/
theorem test_CT12 : endsIn (loaded .binary 0x00#8 0x00#8 0x00#8 0xFD#8 0x20#8 0x0600#16
      [0x20#8, 0x34#8, 0x12#8] [])
    0x00#8 0x00#8 0x00#8 0xFB#8 0x20#8 0x1234#16 6 [(0x01FC#16, 0x02#8), (0x01FD#16, 0x06#8)]
    [(.read, 0x0600#16, 0x20#8), (.read, 0x0601#16, 0x34#8), (.read, 0x01FD#16, 0x00#8),
      (.write, 0x01FD#16, 0x06#8), (.write, 0x01FC#16, 0x02#8), (.read, 0x0602#16, 0x12#8)] = true := by decide

/-- CT13: RTS. -/
theorem test_CT13 : endsIn (loaded .binary 0x00#8 0x00#8 0x00#8 0xFB#8 0x20#8 0x0200#16
      [0x60#8] [(0x01FC#16, 0x02#8), (0x01FD#16, 0x06#8)])
    0x00#8 0x00#8 0x00#8 0xFD#8 0x20#8 0x0603#16 6 []
    [(.read, 0x0200#16, 0x60#8), (.read, 0x0201#16, 0x00#8), (.read, 0x01FB#16, 0x00#8),
      (.read, 0x01FC#16, 0x02#8), (.read, 0x01FD#16, 0x06#8), (.read, 0x0602#16, 0x00#8)] = true := by decide

/-- CT14: RTI restores P (bits 4, 5 dropped). -/
theorem test_CT14 : endsIn (loaded .binary 0x00#8 0x00#8 0x00#8 0xFA#8 0x20#8 0x0200#16
      [0x40#8] [(0x01FB#16, 0xB3#8), (0x01FC#16, 0x00#8), (0x01FD#16, 0x80#8)])
    0x00#8 0x00#8 0x00#8 0xFD#8 0xA3#8 0x8000#16 6 []
    [(.read, 0x0200#16, 0x40#8), (.read, 0x0201#16, 0x00#8), (.read, 0x01FA#16, 0x00#8),
      (.read, 0x01FB#16, 0xB3#8), (.read, 0x01FC#16, 0x00#8), (.read, 0x01FD#16, 0x80#8)] = true := by decide

/-- CT15: BRK. -/
theorem test_CT15 : endsIn (loaded .binary 0x00#8 0x00#8 0x00#8 0xFD#8 0x20#8 0x0400#16
      [0x00#8, 0xEA#8] [(0xFFFE#16, 0x00#8), (0xFFFF#16, 0x90#8)])
    0x00#8 0x00#8 0x00#8 0xFA#8 0x24#8 0x9000#16 7 [(0x01FB#16, 0x30#8), (0x01FC#16, 0x02#8), (0x01FD#16, 0x04#8)]
    [(.read, 0x0400#16, 0x00#8), (.read, 0x0401#16, 0xEA#8), (.write, 0x01FD#16, 0x04#8),
      (.write, 0x01FC#16, 0x02#8), (.write, 0x01FB#16, 0x30#8), (.read, 0xFFFE#16, 0x00#8),
      (.read, 0xFFFF#16, 0x90#8)] = true := by decide

/-- CT20: PHA at S=00 wraps. -/
theorem test_CT20 : endsIn (loaded .binary 0x11#8 0x00#8 0x00#8 0x00#8 0x20#8 0x0200#16
      [0x48#8] [])
    0x11#8 0x00#8 0x00#8 0xFF#8 0x20#8 0x0201#16 3 [(0x0100#16, 0x11#8)]
    [] = true := by decide

/-- CT17: PHP pushes B=1, U=1. -/
theorem test_CT17 : endsIn (loaded .binary 0x00#8 0x00#8 0x00#8 0xFD#8 0xE3#8 0x0200#16
      [0x08#8] [])
    0x00#8 0x00#8 0x00#8 0xFC#8 0xE3#8 0x0201#16 3 [(0x01FD#16, 0xF3#8)]
    [] = true := by decide

/-- CT21: PLA at S=FF wraps. -/
theorem test_CT21 : endsIn (loaded .binary 0x00#8 0x00#8 0x00#8 0xFF#8 0x20#8 0x0200#16
      [0x68#8] [(0x0100#16, 0x80#8)])
    0x80#8 0x00#8 0x00#8 0x00#8 0xA0#8 0x0201#16 4 []
    [] = true := by decide

/-- CT19: PLP all ones. -/
theorem test_CT19 : endsIn (loaded .binary 0x00#8 0x00#8 0x00#8 0xFC#8 0x20#8 0x0200#16
      [0x28#8] [(0x01FD#16, 0xFF#8)])
    0x00#8 0x00#8 0x00#8 0xFD#8 0xEF#8 0x0201#16 4 []
    [(.read, 0x0200#16, 0x28#8), (.read, 0x0201#16, 0x00#8), (.read, 0x01FC#16, 0x00#8), (.read, 0x01FD#16, 0xFF#8)] = true := by decide

/-- CT22: CLC. -/
theorem test_CT22 : endsIn (loaded .binary 0x00#8 0x00#8 0x00#8 0xFD#8 0x21#8 0x0200#16
      [0x18#8] [])
    0x00#8 0x00#8 0x00#8 0xFD#8 0x20#8 0x0201#16 2 []
    [] = true := by decide

/-- CT23: SEC. -/
theorem test_CT23 : endsIn (loaded .binary 0x00#8 0x00#8 0x00#8 0xFD#8 0x20#8 0x0200#16
      [0x38#8] [])
    0x00#8 0x00#8 0x00#8 0xFD#8 0x21#8 0x0201#16 2 []
    [] = true := by decide

/-- CT24: CLI. -/
theorem test_CT24 : endsIn (loaded .binary 0x00#8 0x00#8 0x00#8 0xFD#8 0x24#8 0x0200#16
      [0x58#8] [])
    0x00#8 0x00#8 0x00#8 0xFD#8 0x20#8 0x0201#16 2 []
    [] = true := by decide

/-- CT25: SEI. -/
theorem test_CT25 : endsIn (loaded .binary 0x00#8 0x00#8 0x00#8 0xFD#8 0x20#8 0x0200#16
      [0x78#8] [])
    0x00#8 0x00#8 0x00#8 0xFD#8 0x24#8 0x0201#16 2 []
    [] = true := by decide

/-- CT26: CLD. -/
theorem test_CT26 : endsIn (loaded .binary 0x00#8 0x00#8 0x00#8 0xFD#8 0x28#8 0x0200#16
      [0xD8#8] [])
    0x00#8 0x00#8 0x00#8 0xFD#8 0x20#8 0x0201#16 2 []
    [] = true := by decide

/-- CT27: SED. -/
theorem test_CT27 : endsIn (loaded .binary 0x00#8 0x00#8 0x00#8 0xFD#8 0x20#8 0x0200#16
      [0xF8#8] [])
    0x00#8 0x00#8 0x00#8 0xFD#8 0x28#8 0x0201#16 2 []
    [] = true := by decide

/-- CT28: CLV. -/
theorem test_CT28 : endsIn (loaded .binary 0x00#8 0x00#8 0x00#8 0xFD#8 0x60#8 0x0200#16
      [0xB8#8] [])
    0x00#8 0x00#8 0x00#8 0xFD#8 0x20#8 0x0201#16 2 []
    [] = true := by decide

/-- CT29: NOP. -/
theorem test_CT29 : endsIn (loaded .binary 0x00#8 0x00#8 0x00#8 0xFD#8 0xEF#8 0x0200#16
      [0xEA#8] [])
    0x00#8 0x00#8 0x00#8 0xFD#8 0xEF#8 0x0201#16 2 []
    [] = true := by decide

/-- UD7: SLO abs,Y (RMW always dummy-reads). -/
theorem test_UD7 : endsIn (loaded .binary 0x00#8 0x00#8 0x20#8 0xFD#8 0x20#8 0x0200#16
      [0x1B#8, 0xF0#8, 0x02#8] [(0x0310#16, 0x40#8)])
    0x80#8 0x00#8 0x20#8 0xFD#8 0xA0#8 0x0203#16 7 [(0x0310#16, 0x80#8)]
    [(.read, 0x0200#16, 0x1B#8), (.read, 0x0201#16, 0xF0#8), (.read, 0x0202#16, 0x02#8),
      (.read, 0x0210#16, 0x00#8), (.read, 0x0310#16, 0x40#8), (.write, 0x0310#16, 0x40#8),
      (.write, 0x0310#16, 0x80#8)] = true := by decide

/-- UD2: RLA zp. -/
theorem test_UD2 : endsIn (loaded .binary 0xFF#8 0x00#8 0x00#8 0xFD#8 0x21#8 0x0200#16
      [0x27#8, 0x10#8] [(0x0010#16, 0x80#8)])
    0x01#8 0x00#8 0x00#8 0xFD#8 0x21#8 0x0202#16 5 [(0x0010#16, 0x01#8)]
    [] = true := by decide

/-- UD3: SRE zp. -/
theorem test_UD3 : endsIn (loaded .binary 0x80#8 0x00#8 0x00#8 0xFD#8 0x20#8 0x0200#16
      [0x47#8, 0x10#8] [(0x0010#16, 0x03#8)])
    0x81#8 0x00#8 0x00#8 0xFD#8 0xA1#8 0x0202#16 5 [(0x0010#16, 0x01#8)]
    [] = true := by decide

/-- UD4: RRA zp. -/
theorem test_UD4 : endsIn (loaded .binary 0x10#8 0x00#8 0x00#8 0xFD#8 0x20#8 0x0200#16
      [0x67#8, 0x10#8] [(0x0010#16, 0x03#8)])
    0x12#8 0x00#8 0x00#8 0xFD#8 0x20#8 0x0202#16 5 [(0x0010#16, 0x01#8)]
    [] = true := by decide

/-- UD5: DCP zp equal. -/
theorem test_UD5 : endsIn (loaded .binary 0x05#8 0x00#8 0x00#8 0xFD#8 0x20#8 0x0200#16
      [0xC7#8, 0x10#8] [(0x0010#16, 0x06#8)])
    0x05#8 0x00#8 0x00#8 0xFD#8 0x23#8 0x0202#16 5 [(0x0010#16, 0x05#8)]
    [] = true := by decide

/-- UD6: ISB zp. -/
theorem test_UD6 : endsIn (loaded .binary 0x10#8 0x00#8 0x00#8 0xFD#8 0x21#8 0x0200#16
      [0xE7#8, 0x10#8] [(0x0010#16, 0x0F#8)])
    0x00#8 0x00#8 0x00#8 0xFD#8 0x23#8 0x0202#16 5 [(0x0010#16, 0x10#8)]
    [] = true := by decide

/-- UD9: SAX zp,Y. -/
theorem test_UD9 : endsIn (loaded .binary 0xFF#8 0x0F#8 0x02#8 0xFD#8 0x20#8 0x0200#16
      [0x97#8, 0xFF#8] [])
    0xFF#8 0x0F#8 0x02#8 0xFD#8 0x20#8 0x0202#16 4 [(0x0001#16, 0x0F#8)]
    [] = true := by decide

/-- UD11: LAX (zp),Y cross. -/
theorem test_UD11 : endsIn (loaded .binary 0x00#8 0x00#8 0x10#8 0xFD#8 0x20#8 0x0200#16
      [0xB3#8, 0x10#8] [(0x0010#16, 0xF8#8), (0x0011#16, 0x02#8), (0x0308#16, 0x00#8)])
    0x00#8 0x00#8 0x10#8 0xFD#8 0x22#8 0x0202#16 6 []
    [(.read, 0x0200#16, 0xB3#8), (.read, 0x0201#16, 0x10#8), (.read, 0x0010#16, 0xF8#8),
      (.read, 0x0011#16, 0x02#8), (.read, 0x0208#16, 0x00#8), (.read, 0x0308#16, 0x00#8)] = true := by decide

/-- UD12: LAS abs,Y. -/
theorem test_UD12 : endsIn (loaded .binary 0x00#8 0x00#8 0x00#8 0xFD#8 0x20#8 0x0200#16
      [0xBB#8, 0x00#8, 0x03#8] [(0x0300#16, 0x0F#8)])
    0x0D#8 0x0D#8 0x00#8 0x0D#8 0x20#8 0x0203#16 4 []
    [] = true := by decide

/-- UD13: ANC #. -/
theorem test_UD13 : endsIn (loaded .binary 0xFF#8 0x00#8 0x00#8 0xFD#8 0x20#8 0x0200#16
      [0x0B#8, 0x80#8] [])
    0x80#8 0x00#8 0x00#8 0xFD#8 0xA1#8 0x0202#16 2 []
    [] = true := by decide

/-- UD15: ALR #. -/
theorem test_UD15 : endsIn (loaded .binary 0xFF#8 0x00#8 0x00#8 0xFD#8 0x20#8 0x0200#16
      [0x4B#8, 0x03#8] [])
    0x01#8 0x00#8 0x00#8 0xFD#8 0x21#8 0x0202#16 2 []
    [] = true := by decide

/-- UD17: ARR # binary, V=1. -/
theorem test_UD17 : endsIn (loaded .binary 0xFF#8 0x00#8 0x00#8 0xFD#8 0x20#8 0x0200#16
      [0x6B#8, 0x40#8] [])
    0x20#8 0x00#8 0x00#8 0xFD#8 0x60#8 0x0202#16 2 []
    [] = true := by decide

/-- UD18: ARR # decimal (nmos_bcd, D=1). -/
theorem test_UD18 : endsIn (loaded .nmosBcd 0xFF#8 0x00#8 0x00#8 0xFD#8 0x29#8 0x0200#16
      [0x6B#8, 0xFF#8] [])
    0x55#8 0x00#8 0x00#8 0xFD#8 0xA9#8 0x0202#16 2 []
    [] = true := by decide

/-- UD19: ANE # (magic 0xEE). -/
theorem test_UD19 : endsIn (loaded .binary 0x00#8 0xFF#8 0x00#8 0xFD#8 0x20#8 0x0200#16
      [0x8B#8, 0xFF#8] [])
    0xEE#8 0xFF#8 0x00#8 0xFD#8 0xA0#8 0x0202#16 2 []
    [] = true := by decide

/-- UD20: LXA # (magic 0xEE). -/
theorem test_UD20 : endsIn (loaded .binary 0x00#8 0x00#8 0x00#8 0xFD#8 0x20#8 0x0200#16
      [0xAB#8, 0x0F#8] [])
    0x0E#8 0x0E#8 0x00#8 0xFD#8 0x20#8 0x0202#16 2 []
    [] = true := by decide

/-- UD21: SBX # borrow. -/
theorem test_UD21 : endsIn (loaded .binary 0x0F#8 0xFF#8 0x00#8 0xFD#8 0x20#8 0x0200#16
      [0xCB#8, 0x10#8] [])
    0x0F#8 0xFF#8 0x00#8 0xFD#8 0xA0#8 0x0202#16 2 []
    [] = true := by decide

/-- UD23: USBC # (0xEB). -/
theorem test_UD23 : endsIn (loaded .binary 0x10#8 0x00#8 0x00#8 0xFD#8 0x21#8 0x0200#16
      [0xEB#8, 0x01#8] [])
    0x0F#8 0x00#8 0x00#8 0xFD#8 0x21#8 0x0202#16 2 []
    [] = true := by decide

/-- UD25: SHA (zp),Y cross. -/
theorem test_UD25 : endsIn (loaded .binary 0xFF#8 0xFF#8 0x20#8 0xFD#8 0x20#8 0x0200#16
      [0x93#8, 0x10#8] [(0x0010#16, 0xF0#8), (0x0011#16, 0x12#8)])
    0xFF#8 0xFF#8 0x20#8 0xFD#8 0x20#8 0x0202#16 6 [(0x1310#16, 0x13#8)]
    [(.read, 0x0200#16, 0x93#8), (.read, 0x0201#16, 0x10#8), (.read, 0x0010#16, 0xF0#8),
      (.read, 0x0011#16, 0x12#8), (.read, 0x1210#16, 0x00#8), (.write, 0x1310#16, 0x13#8)] = true := by decide

/-- UD26: SHX abs,Y cross. -/
theorem test_UD26 : endsIn (loaded .binary 0x00#8 0xFF#8 0x20#8 0xFD#8 0x20#8 0x0200#16
      [0x9E#8, 0xF0#8, 0x12#8] [])
    0x00#8 0xFF#8 0x20#8 0xFD#8 0x20#8 0x0203#16 5 [(0x1310#16, 0x13#8)]
    [(.read, 0x0200#16, 0x9E#8), (.read, 0x0201#16, 0xF0#8), (.read, 0x0202#16, 0x12#8),
      (.read, 0x1210#16, 0x00#8), (.write, 0x1310#16, 0x13#8)] = true := by decide

/-- UD27: SHY abs,X cross. -/
theorem test_UD27 : endsIn (loaded .binary 0x00#8 0x20#8 0x01#8 0xFD#8 0x20#8 0x0200#16
      [0x9C#8, 0xF0#8, 0x12#8] [])
    0x00#8 0x20#8 0x01#8 0xFD#8 0x20#8 0x0203#16 5 [(0x0110#16, 0x01#8)]
    [(.read, 0x0200#16, 0x9C#8), (.read, 0x0201#16, 0xF0#8), (.read, 0x0202#16, 0x12#8),
      (.read, 0x1210#16, 0x00#8), (.write, 0x0110#16, 0x01#8)] = true := by decide

/-- UD28: TAS abs,Y. -/
theorem test_UD28 : endsIn (loaded .binary 0xF0#8 0x3F#8 0x00#8 0xFD#8 0x20#8 0x0200#16
      [0x9B#8, 0x00#8, 0x07#8] [])
    0xF0#8 0x3F#8 0x00#8 0x30#8 0x20#8 0x0203#16 5 []
    [(.read, 0x0200#16, 0x9B#8), (.read, 0x0201#16, 0x00#8), (.read, 0x0202#16, 0x07#8),
      (.read, 0x0700#16, 0x00#8), (.write, 0x0700#16, 0x00#8)] = true := by decide

/-- UD31: NOP abs,X cross (0x1C). -/
theorem test_UD31 : endsIn (loaded .binary 0x00#8 0x20#8 0x00#8 0xFD#8 0x20#8 0x0200#16
      [0x1C#8, 0xF0#8, 0x12#8] [])
    0x00#8 0x20#8 0x00#8 0xFD#8 0x20#8 0x0203#16 5 []
    [(.read, 0x0200#16, 0x1C#8), (.read, 0x0201#16, 0xF0#8), (.read, 0x0202#16, 0x12#8),
      (.read, 0x1210#16, 0x00#8), (.read, 0x1310#16, 0x00#8)] = true := by decide

/-- UD33: JAM (0x02) is a no-op. -/
theorem test_UD33 : endsIn (loaded .binary 0x00#8 0x00#8 0x00#8 0xFD#8 0x20#8 0x0200#16
      [0x02#8, 0xEA#8] [])
    0x00#8 0x00#8 0x00#8 0xFD#8 0x20#8 0x0201#16 2 []
    [(.read, 0x0200#16, 0x02#8), (.read, 0x0201#16, 0xEA#8)] = true := by decide

/-! ## Interrupts, reset and the host interface: parts 4 and 5 of 95_test_vectors.md -/

/-- The vectors of part 4.1: NMI 0x9000, IRQ and BRK 0xA000. -/
def vectors : List (Word × Byte) := [(0xFFFB#16, 0x90#8), (0xFFFF#16, 0xA0#8)]

/-- Code at 0x0200 with the two input lines asserted from a cycle on. -/
def interrupted (p : Byte) (code : List Byte) (irq nmi : List (Nat × Bool)) : State :=
  { loaded .binary 0#8 0#8 0#8 0xFD#8 p 0x0200#16 code vectors with
    inputs := { Inputs.quiet with irq := irq, nmi := nmi } }

/-- PC, S, the cycle count and three bytes of the stack. -/
def entry (s : State) : Word × Byte × Nat × List (Option Byte) :=
  (s.cpu.pc, s.cpu.s, s.cycles.toNat, [0x01FD#16, 0x01FC#16, 0x01FB#16].map s.peek)

/-- IV1: NMI_IN rises at cycle 3; the sequence starts at cycle 4. -/
theorem test_IV1 : entry (next (next (next (interrupted 0x20#8 [0xEA#8, 0xEA#8, 0xEA#8] [] [(3, true)])))) =
    (0x9000#16, 0xFA#8, 11, [some 0x02#8, some 0x02#8, some 0x20#8]) := by decide

/-- IV4: IRQ asserted with I clear. -/
theorem test_IV4 : entry (next (next (interrupted 0x20#8 [0xEA#8, 0xEA#8] [(0, true)] []))) =
    (0xA000#16, 0xFA#8, 9, [some 0x02#8, some 0x01#8, some 0x20#8]) := by decide

/-- IV3: IRQ asserted with I set is not taken. -/
theorem test_IV3 : (next (next (interrupted 0x24#8 [0xEA#8, 0xEA#8] [(0, true)] []))).cpu.pc = 0x0202#16 := by decide

/-- IV5: after CLI the IRQ waits one instruction. -/
theorem test_IV5 : (next (next (interrupted 0x24#8 [0x58#8, 0xEA#8] [(0, true)] []))).cpu.pc = 0x0202#16 := by decide

/-- IV6: an IRQ seen at the first cycle of SEI is still taken, with I set in the pushed P. -/
theorem test_IV6 : entry (next (next (interrupted 0x20#8 [0x78#8, 0xEA#8] [(1, true)] []))) =
    (0xA000#16, 0xFA#8, 9, [some 0x02#8, some 0x01#8, some 0x24#8]) := by decide

/-- IV9: BRK hijacked by an NMI: the NMI vector, P pushed with B set, `need_nmi` cleared. -/
theorem test_IV9 :
    entry (next (interrupted 0x20#8 [0x00#8, 0xEA#8] [] [(3, true)])) =
      (0x9000#16, 0xFA#8, 7, [some 0x02#8, some 0x02#8, some 0x30#8]) ∧
    (next (interrupted 0x20#8 [0x00#8, 0xEA#8] [] [(3, true)])).lat.needNmi = false := by decide

/-- RV1: the first step after power-on with `NES` is the reset sequence. -/
theorem test_RV1 :
    logOf (next State.reset) = [(.read, 0xFFFD#16), (.read, 0xFFFC#16), (.read, 0x01FE#16), (.read, 0x01FF#16),
      (.read, 0x0100#16), (.read, 0x0000#16), (.read, 0x0000#16)] ∧
    (next State.reset).cpu.s = 0xFD#8 ∧ (next State.reset).cpu.p.toByte false = 0x24#8 ∧
    (next State.reset).ppu.dot = 21 := by decide +kernel

/-- R10: the machine powers on with the `RAM_INIT` it is constructed with. -/
theorem test_ram_init :
    let s := State.construct ⟨.nes, .binary⟩ ⟨[(5, 0xFF#8)], [(1, 2#8)], [(3, 4#8)], [(6, 7#8)], [(8, 9#8)]⟩ Cart.blank
      Inputs.quiet
    s.peek 0x0805#16 = some 0xFF#8 ∧ s.peek 0x6001#16 = some 2#8 ∧ s.ppu.read s.cart 0x2003#14 = 4#8 ∧
    s.ppu.read s.cart 0x3F06#14 = 7#8 ∧ s.ppu.oam.read 8 = 9#8 := by decide

/-- RV4: with `FLAT` a reset that the host queues for tick 1 runs after one instruction. -/
theorem test_RV4 :
    entry (next (next ((loaded .binary 0#8 0#8 0#8 0#8 0x20#8 0x0000#16 [0xEA#8] [(0xFFFD#16, 4#8)]).queueEvent .reset
      1#64))) = (0x0400#16, 0xFD#8, 9, [some 0#8, some 0#8, some 0#8]) := by decide

/-- PV2: two SCROLL writes. -/
theorem test_PV2 :
    let p := (Ppu.powerOn.writeRegister Cart.blank 5 0x7D#8).writeRegister Cart.blank 5 0x5E#8
    p.t = 0x616F#15 ∧ p.fineX = 5#3 ∧ p.w = false := by decide

/-- R200: a SCROLL and an ADDR write as a first and as a second write. -/
theorem test_single_writes :
    let p := { Ppu.powerOn with t := 0x7FFF#15 }
    let q := { p with w := true }
    (p.writeRegister Cart.blank 5 0x0D#8).t = 0x7FE1#15 ∧ (p.writeRegister Cart.blank 5 0x0D#8).fineX = 5#3 ∧
    (q.writeRegister Cart.blank 5 0x0D#8).t = 0x5C3F#15 ∧ (p.writeRegister Cart.blank 6 0xC1#8).t = 0x01FF#15 ∧
    (q.writeRegister Cart.blank 6 0x12#8).v = 0x7F12#15 := by decide

/-- PV7: the delayed DATA read. -/
theorem test_PV7 :
    let p := { Ppu.powerOn with v := 0x2000#15 }
    let q := (p.writeRegister Cart.blank 7 0x55#8).writeRegister Cart.blank 7 0x66#8
    let a := { q with v := 0x2000#15 }.readRegister Cart.blank 7
    let b := a.2.readRegister Cart.blank 7
    let c := b.2.readRegister Cart.blank 7
    (a.1, b.1, c.1, c.2.v) = (0x00#8, 0x55#8, 0x66#8, 0x2003#15) := by decide

/-- PV8: 0x3F10 folds onto 0x3F00, and the palette read refills the buffer from the nametable below. -/
theorem test_PV8 :
    let p := { Ppu.powerOn with v := 0x3F10#15, nt := [(0x700, 0xAB#8)] }
    let q := p.writeRegister Cart.blank 7 0x2C#8
    let a := { q with v := 0x3F00#15 }.readRegister Cart.blank 7
    (a.1, a.2.readBuffer) = (0x2C#8, 0xAB#8) := by decide

/-- PV10, PV11: the two mirrorings. -/
theorem test_PV10 :
    let p := Ppu.powerOn
    let h := p.write Cart.blank 0x2405#14 0x77#8
    let k : Cart := { Cart.blank with mirroring := .vertical }
    let v := p.write k 0x2405#14 0x77#8
    (h.read Cart.blank 0x2005#14, h.read Cart.blank 0x2805#14, v.read k 0x2005#14, v.read k 0x2C05#14) =
      (0x77#8, 0x00#8, 0x00#8, 0x77#8) := by decide

/-- SW2, SW6, SW8, SW10, SW11: the scroll counters and reloads. -/
theorem test_SW :
    incX 0x001F#15 = 0x0400#15 ∧ incY 0x73A0#15 = 0x0800#15 ∧ incY 0x73E0#15 = 0x0000#15 ∧ incY 0x7000#15 = 0x0020#15 ∧
    reloadX 0x7FFF#15 0x0000#15 = 0x7BE0#15 ∧ reloadY 0x7FFF#15 0x0000#15 = 0x041F#15 := by decide

/-- R91: the dummy read of `LDA $20F0,X` touches STATUS at the un-fixed address and clears vblank and `w`. -/
theorem test_R91 :
    let s := { State.reset with
      queue := [Event.atEnd], ram := [(0x200, 0xBD#8), (0x201, 0xF0#8), (0x202, 0x20#8)]
      cpu := { State.reset.cpu with x := 0x12#8, pc := 0x0200#16 }
      ppu := { Ppu.powerOn with status := 0x80#8, w := true } }
    (next s).ppu.status = 0x00#8 ∧ (next s).ppu.w = false ∧ (next s).cycles = 5#64 := by decide +kernel

/-- R23: a placed word is what the next step runs: INX. -/
theorem test_withFetchWord :
    (next (State.reset.withFetchWord 8 0xE8)).cpu.x = 1#8 ∧
    (next ((State.flatPowerOn .nmosBcd).withFetchWord 8 0xE8)).cpu.x = 1#8 := by decide +kernel

/-- R195: the trigger is on the NES bus only, and the copy is not part of a write elsewhere. -/
theorem test_dma_trigger :
    (State.reset.writeCycle 0x4014#16 2#8).1 = some 2#8 ∧ (State.reset.writeCycle 0x4013#16 2#8).1 = none ∧
    (flatAt.writeCycle 0x4014#16 2#8).1 = none := by decide

/-! ## A case that meets the hypotheses, for every obligation that has some

Each clause of a statement has its case, at the ends of its range where it has one. -/

/-- A `FLAT` machine whose next bytes are `code`, the PC at them, as `exec` meets them. -/
def operandAt (code : List Byte) : State :=
  loaded .binary 0x11#8 0x22#8 0x33#8 0xFD#8 0x20#8 0x0200#16 code []

theorem witness_DecodeOfEncode :
    Assembled.wellFormed ⟨.tax, []⟩ = true ∧ Assembled.wellFormed ⟨.bne, [0xFF#8]⟩ = true ∧
    Assembled.wellFormed ⟨.jmpInd, [0xFF#8, 0x02#8]⟩ = true := by decide

theorem witness_EncodeOfDecode :
    decode [0xA9#8, 0x80#8, 0x00#8] = .ok (⟨.ldaImm, [0x80#8]⟩, [0x00#8]) := rfl

theorem witness_StepRunsDecodedInstruction :
    ∃ (s u : State) (b : Byte) (bs : List Byte) (a : Assembled) (rest : List Byte), s.handleEvents = some u ∧
      u.lat.needReset = false ∧ u.lat.prevNeedNmi = false ∧ u.lat.prevIrq = false ∧ s.peek s.cpu.pc = some b ∧
      decode (b :: bs) = .ok (a, rest) :=
  ⟨operandAt [0xE8#8], operandAt [0xE8#8], 0xE8#8, [], ⟨.inx, []⟩, [], by decide, by decide, by decide, by decide,
    by decide, rfl⟩

theorem witness_StepPriority :
    (∃ u, State.reset.handleEvents = some u ∧ u.lat.needReset = true) ∧
    (∃ u, { flatAt with lat := { flatAt.lat with prevNeedNmi := true } }.handleEvents = some u ∧
      u.lat.needReset = false ∧ u.lat.prevNeedNmi = true ∧ u.lat.prevIrq = false) ∧
    (∃ u, { flatAt with lat := { flatAt.lat with prevIrq := true } }.handleEvents = some u ∧
      u.lat.needReset = false ∧ u.lat.prevNeedNmi = false ∧ u.lat.prevIrq = true) :=
  ⟨⟨_, rfl, rfl⟩, ⟨_, rfl, rfl, rfl, rfl⟩, ⟨_, rfl, rfl, rfl, rfl⟩⟩

theorem witness_StepNeverStops :
    queueWf State.reset.queue = true ∧ queueWf (State.flatPowerOn .binary).queue = true := by decide

/-- Both buses: the reset step with `NES`, an instruction with `FLAT`; also for StepLeavesFixedParts and
StepAdvancesClocks. -/
theorem witness_StepKeepsWellFormed :
    State.reset.wf = true ∧ State.reset.params.bus = .nes ∧ step State.reset = .next (next State.reset) ∧
    flatAt.wf = true ∧ flatAt.params.bus = .flat ∧ step flatAt = .next (next flatAt) := by
  exact ⟨by decide +kernel, rfl, step_next (by decide +kernel), by decide +kernel, rfl, step_next (by decide +kernel)⟩

/-- Every parameter pair, and contents at the ends of the RAM of both buses. -/
theorem witness_PowerOnState :
    Params.wf ⟨.nes, .binary⟩ = true ∧ Params.wf ⟨.flat, .nmosBcd⟩ = true ∧ Cart.blank.wf = true ∧
    Cart.wf { Cart.blank with prgBanks := 2 } = true ∧ RamInit.wf RamInit.zero .nes = true ∧
    RamInit.wf ⟨[(0x7FF, 1#8)], [(0x1FFF, 2#8)], [(0x7FF, 3#8)], [(0x1F, 4#8)], [(0xFF, 5#8)]⟩ .nes = true ∧
    RamInit.wf ⟨[(0xFFFF, 1#8)], [], [], [], []⟩ .flat = true := by decide

theorem witness_FirstStepIsReset : Cart.wf { Cart.blank with prgRom := [(0x3FFD, 0x80#8)] } = true := by decide

theorem witness_QueueInsertsInOrder : queueWf State.reset.queue = true ∧
    (State.reset.queueEvent .reset 0#64).queue = [⟨.reset, 0#64⟩, ⟨.reset, 0#64⟩, Event.atEnd] ∧
    (State.reset.queueEvent .reset 5#64).queue = [⟨.reset, 0#64⟩, ⟨.reset, 5#64⟩, Event.atEnd] ∧
    (State.reset.queueEvent .reset 0xFFFFFFFFFFFFFFFF#64).queue =
      [⟨.reset, 0#64⟩, ⟨.reset, 0xFFFFFFFFFFFFFFFF#64⟩, Event.atEnd] := by decide

theorem witness_DrainTakesArrivedEvents :
    queueWf { flatAt with queue := [⟨.reset, 0#64⟩, ⟨.reset, 1#64⟩, Event.atEnd] }.queue = true := by decide

/-- Both buses. -/
theorem witness_CycleSubSteps :
    State.reset.params.bus = .nes ∧ flatAt.params.bus = .flat ∧
    { flatAt with cycles := 3#64, inputs := { Inputs.quiet with nmi := [(3, true)] } }.busClock.1 = true ∧
    { State.reset with ppu := { Ppu.powerOn with scanline := 241, ctrl := 0x80#8 } }.busClock.1 = true := by
  decide +kernel

/-- The range clauses of R52, in the order of NesAddressDecode. -/
def readClauses (a : Nat) : List Bool :=
  [decide (a < 0x2000), decide (0x2000 ≤ a ∧ a < 0x4000), a == 0x4015, a == 0x4016, a == 0x4017,
    decide ((0x4000 ≤ a ∧ a ≤ 0x4014) ∨ (0x4018 ≤ a ∧ a ≤ 0x401F)), decide (0x4020 ≤ a)]

/-- The range clauses of R53, in the order of NesAddressDecode. -/
def writeClauses (a : Nat) : List Bool :=
  [decide (a < 0x2000), decide (0x2000 ≤ a ∧ a < 0x4000), a == 0x4014, a == 0x4016,
    decide ((0x4000 ≤ a ∧ a ≤ 0x4013) ∨ a = 0x4015 ∨ a = 0x4017), decide (0x4018 ≤ a ∧ a ≤ 0x401F),
    decide (0x4020 ≤ a)]

/-- Every boundary address falls under exactly one clause, and every clause has one. -/
theorem witness_NesAddressDecode :
    State.reset.params.bus = .nes ∧
    [0x0000, 0x1FFF, 0x2000, 0x3FFF, 0x4000, 0x4013, 0x4014, 0x4015, 0x4016, 0x4017, 0x4018, 0x401F, 0x4020,
      0xFFFF].map (fun a => ((readClauses a).idxOf true, (readClauses a).count true)) =
      [(0, 1), (0, 1), (1, 1), (1, 1), (5, 1), (5, 1), (5, 1), (2, 1), (3, 1), (4, 1), (5, 1), (5, 1), (6, 1),
        (6, 1)] ∧
    [0x0000, 0x1FFF, 0x2000, 0x3FFF, 0x4000, 0x4013, 0x4014, 0x4015, 0x4016, 0x4017, 0x4018, 0x401F, 0x4020,
      0xFFFF].map (fun a => ((writeClauses a).idxOf true, (writeClauses a).count true)) =
      [(0, 1), (0, 1), (1, 1), (1, 1), (4, 1), (4, 1), (2, 1), (4, 1), (3, 1), (4, 1), (5, 1), (5, 1), (6, 1),
        (6, 1)] := by decide

theorem witness_PeekAgreesWithRead :
    [0x1FFF#16, 0x2000#16, 0x401F#16, 0x4020#16, 0xFFFF#16].map (fun a => (State.reset.peek a).isSome) =
      [true, false, false, true, true] ∧ (flatAt.peek 0x2000#16).isSome = true := by decide

theorem witness_MemoryReadAfterWrite :
    State.reset.wf = true ∧ flatAt.wf = true ∧ storable .nes 0x1FFF#16 ∧ storable .nes 0x6000#16 ∧
    storable .nes 0x7FFF#16 ∧ storable .flat 0x4014#16 ∧ ¬ storable .nes 0x2000#16 ∧ ¬ storable .nes 0x8000#16 ∧
    sameCell .nes 0x0000#16 0x1800#16 ∧ ¬ sameCell .nes 0x0000#16 0x07FF#16 ∧ ¬ sameCell .flat 0x0000#16 0x0800#16 := by
  refine ⟨by decide +kernel, by decide +kernel, ?_⟩
  unfold storable sameCell
  decide

theorem witness_DmaCopiesPage :
    State.reset.params.bus = .nes ∧ State.reset.wf = true ∧
    (∀ n : Byte, ∃ b, State.reset.peek (joinBytes 0x02#8 n) = some b) ∧
    State.reset.cycles.getLsbD 0 = false ∧ { State.reset with cycles := 7#64 }.cycles.getLsbD 0 = true := by
  refine ⟨rfl, by decide +kernel, ?_, by decide, by decide⟩
  have h : ∀ n : Byte, (State.reset.peek (joinBytes 0x02#8 n)).isSome = true := by decide +kernel
  exact fun n => Option.isSome_iff_exists.mp (h n)

/-- Both vectors; also for BrkEntry, InterruptThenRti, StackResults and SubroutineResults. -/
theorem witness_InterruptEntry :
    flatAt.wf = true ∧ flatAt.lat.needNmi = false ∧
    { flatAt with lat := { flatAt.lat with needNmi := true } }.wf = true ∧
    { flatAt with lat := { flatAt.lat with needNmi := true } }.lat.needNmi = true := by decide +kernel

theorem witness_NmiStaysPending :
    let s := { flatAt with lat := { flatAt.lat with needNmi := true } }
    s.lat.needNmi = true ∧ exec .nop s = .next (did .nop s) := ⟨rfl, exec_next (by decide +kernel)⟩

theorem witness_InterruptEnableDelay :
    { flatAt with cpu := { flatAt.cpu with p := flatAt.cpu.p.setI true } }.cpu.p.i = true ∧
    flatAt.cpu.p.i = false := by decide

/-- The mnemonics that the result statements name, each with an instruction (LoadResults, StoreResults,
LogicResults, AddResults, SubtractResults, CompareResults). -/
theorem witness_mnemonics_memory :
    ([.ldaZp, .ldxZp, .ldyZp, .laxZp, .lasAby, .staZp, .stxZp, .styZp, .saxZp, .andZp, .oraZp, .eorZp, .bitZp, .adcZp,
      .rraZp, .sbcZp, .usbcImm, .isbZp, .cmpZp, .cpxZp, .cpyZp, .dcpZp] : List Instr).map Instr.mnemonic =
    [.LDA, .LDX, .LDY, .LAX, .LAS, .STA, .STX, .STY, .SAX, .AND, .ORA, .EOR, .BIT, .ADC, .RRA, .SBC, .USBC, .ISB, .CMP,
      .CPX, .CPY, .DCP] := by decide

theorem witness_StoreResults :
    ([.shaIzy, .shxAby, .shyAbx, .tasAby] : List Instr).map
      (fun i => highAndRegister i.mnemonic ⟨0xF0#8, 0x3C#8, 0x0F#8, 0xFD#8, 0x0200#16, flatAt.cpu.p⟩) =
    [some 0x30#8, some 0x3C#8, some 0x0F#8, some 0x30#8] := by decide

/-- Also for the decimal clause of UndocumentedImmediateResults and of AddResults. -/
theorem witness_DecimalArithmetic :
    let s := loaded .nmosBcd 0x58#8 0#8 0#8 0xFD#8 0x29#8 0x0200#16 [0x46#8] []
    inDecimal s ∧ isBcd s.cpu.a ∧ isBcd (operand .adcImm s).1 ∧ isBcd (operand .sbcImm s).1 ∧
    Instr.mnemonic .adcImm = .ADC ∧ Instr.mnemonic .sbcImm = .SBC := by
  unfold inDecimal isBcd
  decide

theorem witness_ShiftAndStepResults :
    ([.incZp, .decZp, .aslAcc, .lsrZp, .rolAcc, .rorZp] : List Instr).map (fun i => (i.mnemonic, i.mode)) =
    [(.INC, .zp), (.DEC, .zp), (.ASL, .acc), (.LSR, .zp), (.ROL, .acc), (.ROR, .zp)] := by decide

theorem witness_CombinedShiftResults :
    ([.sloZp, .rlaZp, .sreZp] : List Instr).map Instr.mnemonic = [.SLO, .RLA, .SRE] := by decide

theorem witness_UndocumentedImmediateResults :
    ([.ancImm0B, .alrImm, .arrImm, .aneImm, .lxaImm, .sbxImm] : List Instr).map Instr.mnemonic =
      [.ANC, .ALR, .ARR, .ANE, .LXA, .SBX] ∧
    ¬ inDecimal (loaded .nmosBcd 0#8 0#8 0#8 0xFD#8 0x20#8 0x0200#16 [] []) ∧
    ¬ inDecimal (loaded .binary 0#8 0#8 0#8 0xFD#8 0x28#8 0x0200#16 [] []) ∧
    inDecimal (loaded .nmosBcd 0#8 0#8 0#8 0xFD#8 0x28#8 0x0200#16 [] []) := by
  unfold inDecimal
  decide

/-- A branch not taken, one that stays in its page by a byte, one that leaves it by a byte. -/
theorem witness_BranchResults :
    Instr.accessClass .bne = .branch ∧ taken (Instr.mnemonic .beq) (operandAt [0x10#8]).cpu.p = false ∧
    taken (Instr.mnemonic .bne) (operandAt [0xFE#8]).cpu.p = true ∧
    hiByte (0x0201#16 + sext16 (operandAt [0xFF#8]).fetch.1) = hiByte 0x0201#16 ∧
    hiByte (0x0201#16 + sext16 (operandAt [0xFE#8]).fetch.1) ≠ hiByte 0x0201#16 := by decide

theorem witness_SubroutineResults :
    (operandAt [0x34#8, 0x12#8]).wf = true ∧ (operandAt [0x34#8, 0x12#8]).peek 0x0200#16 = some 0x34#8 ∧
    (operandAt [0x34#8, 0x12#8]).peek 0x0201#16 = some 0x12#8 ∧
    ¬ sameCell .flat (slotBelow (operandAt []) 0#8) 0x0201#16 ∧
    ¬ sameCell .flat (slotBelow (operandAt []) 1#8) 0x0201#16 := by
  refine ⟨by decide +kernel, by decide, by decide, ?_⟩
  unfold sameCell
  decide

theorem witness_JsrThenRts :
    exec .jsr (operandAt [0x34#8, 0x12#8]) = .next (did .jsr (operandAt [0x34#8, 0x12#8])) :=
  exec_next (by decide +kernel)

theorem witness_NoOperationResults :
    ([.nop, .jam02, .nopImp1A, .nopImm80, .nopZp04, .nopAbx1C] : List Instr).map (fun i => (i.mnemonic, i.mode)) =
    [(.NOP, .imp), (.JAM, .imp), (.NOP, .imp), (.NOP, .imm), (.NOP, .zp), (.NOP, .abx)] := by decide

/-- Every memory mode, and an index that just stays in its page and one that just leaves it. -/
theorem witness_OperandAddress :
    (∀ m : MemMode, ∃ i : Instr, memModeOf i.mode = some m ∧ operandBytes i (operandAt [0xDE#8, 0x12#8]) 0xDE#8 0x12#8) ∧
    crosses (indexing (operandAt []) .abx 0xDD#8 0x12#8) = false ∧
    crosses (indexing (operandAt []) .abx 0xDE#8 0x12#8) = true := by
  have h : ∀ i : Instr, operandBytes i (operandAt [0xDE#8, 0x12#8]) 0xDE#8 0x12#8 :=
    fun i => ⟨fun _ => by decide, fun _ => by decide⟩
  refine ⟨fun m => ?_, by decide, by decide⟩
  cases m
  exacts [⟨.ldaZp, rfl, h _⟩, ⟨.ldaZpx, rfl, h _⟩, ⟨.ldxZpy, rfl, h _⟩, ⟨.ldaAbs, rfl, h _⟩, ⟨.ldaAbx, rfl, h _⟩,
    ⟨.ldaAby, rfl, h _⟩, ⟨.ldaIzx, rfl, h _⟩, ⟨.ldaIzy, rfl, h _⟩]

/-- Also for CycleCounts; with `NES` a store to the DMA trigger is the one form left out. -/
theorem witness_BusCycleSequence :
    operandBytes .staAbx (operandAt [0xFF#8, 0x02#8]) 0xFF#8 0x02#8 ∧
    startsNoDma .staAbx (operandAt [0xFF#8, 0x02#8]) 0xFF#8 0x02#8 ∧
    startsNoDma .staAbs State.reset 0x15#8 0x40#8 ∧ ¬ startsNoDma .staAbs State.reset 0x14#8 0x40#8 ∧
    exec .staAbx (operandAt [0xFF#8, 0x02#8]) = .next (did .staAbx (operandAt [0xFF#8, 0x02#8])) := by
  refine ⟨?_, ?_, ?_, ?_, exec_next (by decide +kernel)⟩
  · unfold operandBytes; decide
  · unfold startsNoDma; decide
  · unfold startsNoDma; decide
  · unfold startsNoDma; decide

theorem witness_NonStoringLeaveMemory :
    Instr.accessClass .cmpZp ≠ .write ∧ Instr.accessClass .cmpZp ≠ .rmw ∧
    exec .cmpZp (operandAt [0x10#8]) = .next (did .cmpZp (operandAt [0x10#8])) :=
  ⟨by decide, by decide, exec_next (by decide +kernel)⟩

/-- A store, a read-modify-write and a high-byte-AND store that crosses a page. -/
theorem witness_StoresTouchOnlyTarget :
    (operandAt [0xF0#8, 0x12#8]).wf = true ∧
    Instr.accessClass .incAbs = .rmw ∧ (target .incAbs (operandAt [0xF0#8, 0x12#8])).1.ea = 0x12F0#16 ∧
    Instr.accessClass .staAbs = .write ∧ highAndRegister (Instr.mnemonic .staAbs) (operandAt []).cpu = none ∧
    Instr.accessClass .shyAbx = .write ∧ highAndRegister (Instr.mnemonic .shyAbx) (operandAt []).cpu = some 0x33#8 ∧
    highAndAddr 0x33#8 (target .shyAbx (operandAt [0xF0#8, 0x12#8])).1 = 0x1312#16 ∧
    exec .shyAbx (operandAt [0xF0#8, 0x12#8]) = .next (did .shyAbx (operandAt [0xF0#8, 0x12#8])) :=
  ⟨by decide +kernel, rfl, by decide +kernel, rfl, rfl, rfl, by decide +kernel, by decide +kernel,
    exec_next (by decide +kernel)⟩

theorem witness_RegisterWriters :
    writesA .staZp = false ∧ writesX .ldaZp = false ∧ writesY .ldaZp = false ∧ writesS .tsx = false ∧ writesC .incZp = false ∧
    writesV .cmpZp = false ∧ writesI .sed = false ∧ writesD .sei = false ∧ writesNZ .txs = false := by decide

/-- Dots at the ends of the ranges of ScrollRules and DotFrame. -/
def atDot (y : Fin 262) (d : Fin 341) : Ppu := { Ppu.powerOn with mask := 0x08#8, scanline := y, dot := d, v := 0x7FFF#15 }

theorem witness_ScrollRules :
    (atDot 0 256).rendering = true ∧ (atDot 239 256).fetchLine = true ∧ (atDot 240 256).fetchLine = false ∧
    (atDot 261 280).fetchLine = true ∧ coarseX 0x001F#15 = 31#5 ∧ coarseX 0x001E#15 ≠ 31#5 ∧ fineY 0x7000#15 = 7#3 ∧
    fineY 0x6FFF#15 ≠ 7#3 ∧ coarseY 0x73A0#15 = 29#5 ∧
    ((atDot 0 8).tick Cart.blank).v = incX 0x7FFF#15 ∧ ((atDot 0 248).tick Cart.blank).v = incX 0x7FFF#15 ∧
    ((atDot 0 328).tick Cart.blank).v = incX 0x7FFF#15 ∧ ((atDot 0 336).tick Cart.blank).v = incX 0x7FFF#15 ∧
    ((atDot 261 280).tick Cart.blank).v = 0x041F#15 ∧ ((atDot 261 304).tick Cart.blank).v = 0x041F#15 ∧
    ((atDot 261 279).tick Cart.blank).v = 0x7FFF#15 ∧ ((atDot 261 305).tick Cart.blank).v = 0x7FFF#15 := by
  decide +kernel

theorem witness_PpuMemoryMirrors :
    Ppu.powerOn.wf = true ∧ (0x1FFF#14).toNat < 0x2000 ∧ palIndex 0x3F14 = palIndex 0x3F24 ∧
    palIndex 0x3F11 ≠ palIndex 0x3F01 ∧ ntIndex .horizontal 0x2000 = ntIndex .horizontal 0x3400 ∧
    ntIndex .vertical 0x23FF = ntIndex .vertical 0x2BFF ∧ ntIndex .vertical 0x3EFF = ntIndex .vertical 0x26FF := by
  decide

theorem witness_VblankAndNmi :
    (atDot 241 1).scanline.val = 241 ∧ (atDot 261 1).scanline.val = 261 ∧ (atDot 241 1).dot.val = 1 ∧
    ((atDot 241 1).tick Cart.blank).status = 0x80#8 ∧ ((atDot 241 2).tick Cart.blank).status = 0x00#8 ∧
    ((atDot 240 1).tick Cart.blank).status = 0x00#8 := by decide +kernel

theorem witness_PpuRegisterReads :
    ({ Ppu.powerOn with v := 0x3EFF#15 }.v.setWidth 14 : PAddr).toNat < 0x3F00 ∧
    0x3F00 ≤ ({ Ppu.powerOn with v := 0x3F00#15 }.v.setWidth 14 : PAddr).toNat := by decide

theorem witness_PpuRegisterWrites :
    Ppu.powerOn.w = false ∧ (Ppu.powerOn.writeRegister Cart.blank 5 0x7D#8).w = true := by decide

theorem witness_DotFrame :
    (atDot 0 257).wf = true ∧ ((atDot 0 257).tick Cart.blank).v = 0x7BE0#15 ∧
    ((atDot 240 257).tick Cart.blank).v = 0x7FFF#15 ∧ ((atDot 0 258).tick Cart.blank).v = 0x7FFF#15 ∧
    ((atDot 0 320).tick Cart.blank).v = 0x7FFF#15 ∧ (atDot 260 340).framePos + 1 = 261 * 341 ∧
    (atDot 260 339).framePos + 1 ≠ 261 * 341 ∧
    (({ atDot 0 1 with pal := [(0, 0x0F#8)] }).tick Cart.blank).frame.read 0 = 0x0F#8 := by decide +kernel

/-- The ends of the windows of R203, and a visible dot whose pixel is the shifted register's. -/
theorem witness_BackgroundPipeline :
    (atDot 0 1).wf = true ∧ (atDot 0 1).rendering = true ∧ (atDot 261 1).fetchLine = true ∧
    Ppu.powerOn.rendering = false ∧ (atDot 240 1).fetchLine = false ∧
    [1, 2, 257, 258, 321, 322, 337, 338].map shiftDot = [false, true, true, false, false, true, true, false] ∧
    [1, 9, 257, 258, 321, 337, 338].map reloadDot = [false, true, true, false, true, true, false] ∧
    [0, 1, 249, 257, 321, 337, 338].map (fetchDot 1) = [false, true, true, false, true, true, false] ∧
    [7, 255, 327, 335, 343].map (fetchDot 7) = [true, true, true, true, false] ∧
    (({ atDot 0 2 with bgPatLo := 0x4000#16, pal := [(1, 0x11#8)] }).tick Cart.blank).frame.read 1 = 0x11#8 ∧
    (({ atDot 0 9 with ptLoLatch := 0xA5#8 }).tick Cart.blank).bgPatLo = 0x00A5#16 := by decide +kernel

theorem witness_HostLoadsFlatOnly :
    State.reset.wf = true ∧ State.reset.params.bus = .nes ∧ flatAt.wf = true ∧ flatAt.params.bus = .flat ∧
    (flatAt.loadState 0#8 0#8 0#8 0#8 0#8 0#16 [(0xFFFF#16, 1#8), (0#16, 2#8), (0xFFFF#16, 3#8)]).peek 0xFFFF#16 =
      some 3#8 := by decide +kernel

/-- The header of an NROM image of one PRG and one CHR bank, vertical mirroring. -/
def header : List Byte :=
  [0x4E#8, 0x45#8, 0x53#8, 0x1A#8, 1#8, 1#8, 0x01#8, 0#8, 0#8, 0#8, 0#8, 0#8, 0#8, 0#8, 0#8, 0#8]

theorem witness_ImageConstruction :
    ∃ rom : List Byte, imageByte (header ++ rom) 5 ≠ 0 ∧
      ∃ s, State.ofImage RamInit.zero Inputs.quiet (header ++ rom) = .ok s := by
  obtain ⟨rom, len⟩ : ∃ rom : List Byte, rom.length = 0x6000 := ⟨List.replicate 0x6000 0xEA#8, List.length_replicate⟩
  have all : (header ++ rom).length = 0x6010 := by rw [List.length_append, len]; rfl
  have head : parseHeader (header ++ rom) = .ok ⟨1, 1, .vertical, 0, 1⟩ := by
    unfold parseHeader
    have magic : (header ++ rom).take 4 = [0x4E#8, 0x45#8, 0x53#8, 0x1A#8] := rfl
    have b4 : imageByte (header ++ rom) 4 = 1 := rfl
    have b5 : imageByte (header ++ rom) 5 = 1 := rfl
    have b6 : imageByte (header ++ rom) 6 = 1 := rfl
    have b7 : imageByte (header ++ rom) 7 = 0 := rfl
    have b8 : imageByte (header ++ rom) 8 = 0 := rfl
    rw [if_neg (by omega), if_neg (not_not.mpr magic), b4, b5, b6, b7, b8]
    rfl
  refine ⟨rom, (by decide : (1 : Nat) ≠ 0), ?_⟩
  unfold State.ofImage Cart.ofImage
  rw [head]
  dsimp only
  rw [if_neg (by omega)]
  exact ⟨_, rfl⟩

end Sys2Proof.Tests
end

section
/-! SUPPORT. The scope: what construction gives and from which images, what no step changes, and the interrupt
latches across one read. -/

namespace Sys2Proof.Machine

/-! ## Construction (R10, R41) -/

/-- The power-on queue, the Reset event with `NES` only (R192, D20). -/
theorem State.construct_queue (c : Params) (m : RamInit) (k : Cart) (inp : Inputs) :
    (State.construct c m k inp).queue =
      if c.bus = .nes then [⟨.reset, 0#64⟩, Event.atEnd] else [Event.atEnd] := by
  obtain ⟨bus, mode⟩ := c
  cases bus <;> rfl

/-- Construction from well-formed parts is well formed (R33, R34, R40, R59). -/
theorem State.construct_wf {c : Params} {m : RamInit} {k : Cart} (inp : Inputs) (hc : c.wf = true)
    (hm : m.wf c.bus = true) (hk : k.wf = true) : (State.construct c m k inp).wf = true := by
  simp only [RamInit.wf, Bool.and_eq_true] at hm
  obtain ⟨⟨⟨⟨hram, hprgRam⟩, hnt⟩, hpal⟩, hoam⟩ := hm
  simp only [Cart.wf, Bool.and_eq_true] at hk
  obtain ⟨⟨⟨hbanks, hprgRom⟩, -⟩, hchrRom⟩ := hk
  have queue : queueWf (State.construct c m k inp).queue = true := by
    rw [State.construct_queue]
    split <;> decide
  have cart : (State.construct c m k inp).cart.wf = true := by
    simp only [State.construct_cart, Cart.wf, Bool.and_eq_true]
    exact ⟨⟨⟨hbanks, hprgRom⟩, hprgRam⟩, hchrRom⟩
  have ppu : (State.construct c m k inp).ppu.wf = true :=
    (Ppu.wf_iff _).mpr ⟨hnt, hpal, hoam, rfl, rfl, BitVec.zero_and⟩
  exact (State.wf_iff _).mpr ⟨hc, queue, hram, cart, ppu⟩

/-- Settles O9: the record field by field, its queue by the bus. -/
theorem powerOnState : Obligations.PowerOnState := by
  refine ⟨fun c m k inp => ⟨State.construct_wf inp, ?_, ?_⟩, fun n => ⟨rfl, rfl, rfl, rfl, rfl, rfl⟩⟩
  · rw [State.construct_cpu]
    decide
  · obtain ⟨bus, mode⟩ := c
    cases bus
    case nes => rfl
    case flat => rfl

/-! ## Construction from an image (R58, R59) -/

/-- The header of an image, read without any check (R58). -/
def InesHeader.ofBytes (img : List Byte) : InesHeader where
  prgBanks := imageByte img 4
  chrBanks := imageByte img 5
  mirroring := if imageByte img 6 % 2 = 0 then .horizontal else .vertical
  mapper := imageByte img 7 / 0x10 * 0x10 + imageByte img 6 / 0x10
  prgRamBanks := max 1 (imageByte img 8)

/-- Which headers are accepted, and that they are read as they stand (R58, notes/assumptions/8.md). -/
theorem parseHeader_eq_ok_iff {img : List Byte} {h : InesHeader} : parseHeader img = .ok h ↔
    16 ≤ img.length ∧ img.take 4 = [0x4E#8, 0x45#8, 0x53#8, 0x1A#8] ∧ (InesHeader.ofBytes img).mapper = 0 ∧
      (imageByte img 4 = 1 ∨ imageByte img 4 = 2) ∧ InesHeader.ofBytes img = h := by
  have unfolded : parseHeader img =
      if img.length < 16 then .error .malformedHeader
      else if img.take 4 ≠ [0x4E#8, 0x45#8, 0x53#8, 0x1A#8] then .error .malformedHeader
      else if (InesHeader.ofBytes img).mapper ≠ 0 then .error .unsupportedMapper
      else if imageByte img 4 = 1 ∨ imageByte img 4 = 2 then .ok (InesHeader.ofBytes img)
      else .error .malformedHeader := rfl
  rw [unfolded]
  split
  · next short => simp [show ¬ 16 ≤ img.length by omega]
  · next long =>
    split
    · next magic => simp [magic]
    · next magic =>
      split
      · next mapper => simp [mapper]
      · next mapper =>
        rw [not_not] at magic mapper
        split
        · next banks => simp [magic, mapper, banks, show 16 ≤ img.length by omega]
        · next banks => simp [banks]

/-- A mapper 0 image with all the ROM its header declares. -/
structure NromImage (img : List Byte) : Prop where
  magic  : img.take 4 = [0x4E#8, 0x45#8, 0x53#8, 0x1A#8]
  mapper : imageByte img 7 / 16 * 16 + imageByte img 6 / 16 = 0
  banks  : imageByte img 4 = 1 ∨ imageByte img 4 = 2
  whole  : 16 + imageByte img 4 * 0x4000 + imageByte img 5 * 0x2000 ≤ img.length

/-- `len` bytes of an image from offset `off` on, as a memory from address 0 on. -/
def imageSlice (img : List Byte) (off len : Nat) : Memory := Memory.writeList [] 0 ((img.drop off).take len)

/-- The cartridge of a mapper 0 image: PRG ROM after the header, CHR ROM after that (R58, R59). -/
def Cart.ofNrom (img : List Byte) : Cart where
  prgRom := imageSlice img 16 (imageByte img 4 * 0x4000)
  prgBanks := imageByte img 4
  prgRam := []
  chrBanks := imageByte img 5
  chrRom := imageSlice img (16 + imageByte img 4 * 0x4000) (min (imageByte img 5 * 0x2000) 0x2000)
  mirroring := if imageByte img 6 % 2 = 0 then .horizontal else .vertical

/-- An image gives a cartridge exactly if it is a whole mapper 0 image, and gives that cartridge. -/
theorem Cart.ofImage_eq_ok_iff {img : List Byte} {k : Cart} :
    Cart.ofImage img = .ok k ↔ NromImage img ∧ Cart.ofNrom img = k := by
  unfold Cart.ofImage
  split
  · next e refused =>
    have notNrom : ¬ NromImage img := by
      rintro ⟨magic, mapper, banks, whole⟩
      have accepted := parseHeader_eq_ok_iff.mpr ⟨by omega, magic, mapper, banks, rfl⟩
      rw [refused] at accepted
      cases accepted
    simp [notNrom]
  · next h accepted =>
    obtain ⟨-, magic, mapper, banks, rfl⟩ := parseHeader_eq_ok_iff.mp accepted
    dsimp only [InesHeader.ofBytes]
    split
    · next short =>
      have notNrom : ¬ NromImage img := fun nrom => by have := nrom.whole; omega
      simp [notNrom]
    · next whole =>
      have nrom : NromImage img := ⟨magic, mapper, banks, by omega⟩
      simp only [Except.ok.injEq, nrom, true_and, List.drop_drop]
      rfl

/-- A slice that the image holds whole is a canonical memory of its length. -/
theorem imageSlice_wf (img : List Byte) (off : Nat) {len size : Nat} (h : len ≤ size) :
    Memory.wf size (imageSlice img off len) = true := by
  refine Memory.writeList_wf _ rfl ?_
  rw [List.length_take]
  omega

/-- A byte of a slice that the image holds whole. -/
theorem imageSlice_read {img : List Byte} {off len n : Nat} (whole : off + len ≤ img.length) (h : n < len) :
    (imageSlice img off len).read n = img.getD (off + n) 0#8 := by
  have length : ((img.drop off).take len).length = len := by
    rw [List.length_take, List.length_drop]
    omega
  unfold imageSlice
  rw [Memory.read_writeList (size := len) _ rfl (by omega), if_pos (by omega)]
  simp [List.getD_eq_getElem?_getD, h]

/-- The cartridge of a mapper 0 image is well formed (R59). -/
theorem Cart.ofNrom_wf {img : List Byte} (h : NromImage img) : (Cart.ofNrom img).wf = true := by
  simp only [Cart.wf, Bool.and_eq_true, Bool.or_eq_true, beq_iff_eq]
  exact ⟨⟨⟨h.banks, imageSlice_wf img _ (le_refl _)⟩, rfl⟩, imageSlice_wf img _ (Nat.min_le_right _ _)⟩

/-- PRG ROM holds the declared bytes after the header. -/
theorem Cart.ofNrom_prgRom_read {img : List Byte} (h : NromImage img) {n : Nat} (hn : n < imageByte img 4 * 0x4000) :
    (Cart.ofNrom img).prgRom.read n = img.getD (16 + n) 0#8 := by
  have whole := h.whole
  exact imageSlice_read (by omega) hn

/-- Where there is a CHR bank, CHR reads give the bytes after PRG ROM. -/
theorem Cart.ofNrom_readChr {img : List Byte} (h : NromImage img) (bank : imageByte img 5 ≠ 0) {n : Nat}
    (hn : n < 0x2000) : (Cart.ofNrom img).readChr n = img.getD (16 + imageByte img 4 * 0x4000 + n) 0#8 := by
  have whole := h.whole
  unfold Cart.readChr
  rw [if_neg (show (Cart.ofNrom img).chrBanks ≠ 0 from bank), Nat.mod_eq_of_lt hn]
  exact imageSlice_read (by omega) (by omega)

/-- An image constructs the power-on NES machine of its cartridge, if it is a whole mapper 0 image. -/
theorem State.ofImage_eq_ok_iff {m : RamInit} {inp : Inputs} {img : List Byte} {s : State} :
    State.ofImage m inp img = .ok s ↔
      NromImage img ∧ State.construct ⟨.nes, .binary⟩ m (Cart.ofNrom img) inp = s := by
  unfold State.ofImage
  split
  · next e refused =>
    have notNrom : ¬ NromImage img := fun nrom => by
      have accepted := Cart.ofImage_eq_ok_iff.mpr ⟨nrom, rfl⟩
      rw [refused] at accepted
      cases accepted
    simp [notNrom]
  · next k accepted =>
    obtain ⟨nrom, rfl⟩ := Cart.ofImage_eq_ok_iff.mp accepted
    simp [nrom]

/-- Settles O60: by what `Cart.ofImage` accepts and builds, and what a slice of the image reads as. -/
theorem imageConstruction : Obligations.ImageConstruction := by
  refine fun m inp img => ⟨⟨?_, ?_⟩, ?_⟩
  · rintro ⟨s, hs⟩
    obtain ⟨⟨magic, mapper, banks, whole⟩, -⟩ := State.ofImage_eq_ok_iff.mp hs
    exact ⟨magic, mapper, banks, whole⟩
  · rintro ⟨magic, mapper, banks, whole⟩
    exact ⟨_, State.ofImage_eq_ok_iff.mpr ⟨⟨magic, mapper, banks, whole⟩, rfl⟩⟩
  · intro s hs
    obtain ⟨nrom, rfl⟩ := State.ofImage_eq_ok_iff.mp hs
    exact ⟨rfl, rfl, rfl, rfl, fun n => Cart.ofNrom_prgRom_read nrom, fun bank n => Cart.ofNrom_readChr nrom bank,
      fun hm => State.construct_wf inp rfl hm (Cart.ofNrom_wf nrom)⟩

/-! ## The fixed parts (R10, R46, R56, R57, R59) -/

/-- A relation kept by everything an instruction does, and that does not look at the queue and the latches, is kept
by every step. -/
theorem Closed.step_of_scheduler {R : State → State → Prop} (h : Closed R)
    (scheduler : ∀ (s : State) (q : List Event) (l : Latches), R s { s with queue := q, lat := l }) {s t : State}
    (he : Machine.step s = .next t) : R s t := by
  refine h.step (fun s u hu => ?_) (fun s => scheduler s s.queue _) he
  rw [State.handleEvents_eq hu]
  exact scheduler s u.queue _

/-- Settles O13: the fixed parts and the clocks of the devices are relations that every step keeps. -/
theorem stepLeavesFixedParts : Obligations.StepLeavesFixedParts := by
  intro s t he
  have fixed : SameFixed s t :=
    sameFixed_closed.step_of_scheduler (fun _ _ _ => ⟨rfl, rfl, rfl, rfl, rfl, rfl, rfl⟩) he
  have clocked : Clocked s t :=
    clocked_closed.step_of_scheduler (fun _ _ _ => Clocked.of_eq rfl rfl rfl rfl rfl rfl rfl) he
  obtain ⟨params, inputs, prgRom, prgBanks, chrBanks, chrRom, mirroring⟩ := fixed
  obtain ⟨-, -, -, -, -, flat⟩ := clocked
  refine ⟨params, inputs, prgRom, prgBanks, chrBanks, chrRom, mirroring, fun bus => ?_⟩
  obtain ⟨apuTicks, ppu, cart, extCalls⟩ := flat bus
  exact ⟨cart, ppu, extCalls, apuTicks⟩

/-! ## The IRQ latches across a read (R183) -/

/-- The poll of a read sees the IRQ level of its cycle and I as it stands. -/
@[simp] theorem State.memRead_irqActive (s : State) (a : Word) : (s.memRead a).2.lat.irqActive =
    (levelAt s.inputs.irq (s.cycles + 1#64).toNat && !s.cpu.p.i) := by
  simp [State.memRead_snd, State.endCycle_lat, Latches.poll, State.irqPin]

/-- The poll of a read keeps the `irq_active` of before it. -/
@[simp] theorem State.memRead_prevIrq (s : State) (a : Word) : (s.memRead a).2.lat.prevIrq = s.lat.irqActive := by
  simp [State.memRead_snd, State.endCycle_lat, Latches.poll]

/-- PLP is three reads, then P from the byte pulled (R147). -/
theorem State.pullP_eq (s : State) : ∃ a b : Word,
    s.pullP = (((s.dummyRead a).dummyRead b).pull.2).setP (Flags.ofByte ((s.dummyRead a).dummyRead b).pull.1) :=
  ⟨_, _, rfl⟩

/-- Settles O26: each instruction writes I after its last read, whose poll saw the old I. -/
theorem interruptEnableDelay : Obligations.InterruptEnableDelay := by
  intro s
  obtain ⟨x, y, plp⟩ := s.pullP_eq
  refine ⟨s.runImplied opCli, s.runImplied opSei, s.pullP, rfl, rfl, rfl, ?_⟩
  refine ⟨State.memRead_irqActive s _, State.memRead_irqActive s _, ?_, State.memRead_prevIrq s _,
    State.memRead_prevIrq s _, ?_, rfl, rfl, ?_⟩
  · simp [plp, State.pull_eq, BitVec.add_assoc]
  · simp [plp, State.pull_eq, State.dummyRead_eq, BitVec.add_assoc]
  · simp [plp, State.pull_fst, Claims.stackByte, Flags.ofByte]

end Sys2Proof.Machine
end

section
/-! SUPPORT. The state: what every step keeps, and that no cycle takes a pending NMI away. -/

namespace Sys2Proof.Machine

/-! ## The canonical form and the clocks (R31, R33, R34, R39, R40, R45, R46, R59) -/

/-- Settles O8: every cycle keeps the canonical form (`wf_closed`), and draining keeps the queue's. -/
theorem stepKeepsWellFormed : Obligations.StepKeepsWellFormed := by
  intro s t hs he
  have drained : ∀ s u : State, s.handleEvents = some u → s.wf = true → u.wf = true := by
    intro s u hu hs
    obtain ⟨params, queue, ram, cart, ppu⟩ := (State.wf_iff s).mp hs
    have kept := State.handleEvents_wf hu queue
    rw [State.handleEvents_eq hu]
    exact (State.wf_iff _).mpr ⟨params, kept, ram, cart, ppu⟩
  exact wf_closed.step drained (fun _ h => h) he hs

/-- Settles O12: the clocks move together over every step (`clocked_closed`). -/
theorem stepAdvancesClocks : Obligations.StepAdvancesClocks := by
  intro s t he
  have clocked : Clocked s t :=
    clocked_closed.step_of_scheduler (fun _ _ _ => Clocked.of_eq rfl rfl rfl rfl rfl rfl rfl) he
  obtain ⟨new, log, cycles, -, nes, flat⟩ := clocked
  refine ⟨new, log, cycles, nes, fun bus => ?_⟩
  obtain ⟨apuTicks, ppu, -, -⟩ := flat bus
  exact ⟨apuTicks, ppu⟩

/-! ## A pending NMI (R30, R183) -/

/-- A relation kept by bus reads, bus writes and register changes, but maybe not where an NMI is serviced. -/
structure WriteClosed (R : State → State → Prop) : Prop extends ReadClosed R where
  write : ∀ s a v, R s (s.memWrite a v)

namespace WriteClosed

variable {R : State → State → Prop} (h : WriteClosed R) {s u : State}
include h

theorem memWrite (a : Word) (v : Byte) (k : R s u) : R s (u.memWrite a v) := h.trans _ _ _ k (h.write u a v)

theorem push (v : Byte) (k : R s u) : R s (u.push v) := by
  rw [State.push_eq]
  exact h.setS _ (h.memWrite _ _ k)

/-- Only BRK services an NMI inside an instruction (R187). -/
theorem exec {i : Instr} {t : State} (he : Machine.exec i s = .next t) (hb : i ≠ .brk) : R s t := by
  have k := h.refl s
  cases runs_of_exec he with
  | implied _ hop => exact h.runImplied hop k
  | imm _ _ hop => exact h.runImm hop k
  | read _ _ hop => exact h.runRead hop k
  | write =>
    rw [State.runWrite_eq]
    exact h.memWrite _ _ (h.resolve _ _ k)
  | highAnd _ _ hpre =>
    rw [State.runHighAnd_eq]
    exact h.memWrite _ _ (h.regOnly hpre (h.resolve _ _ k))
  | rmw _ _ hop =>
    rw [State.runRmw_eq]
    exact h.memWrite _ _ (h.regOnly (hop _) (h.memWrite _ _ (h.memRead _ (h.resolve _ _ k))))
  | branch => exact h.runBranch _ k
  | jmpAbs => exact h.jumpAbs k
  | jmpInd => exact h.jumpInd k
  | jsr => exact h.setPc _ (h.memRead _ (h.push _ (h.push _ (h.dummyRead _ (h.fetch k)))))
  | rts => exact h.returnSub k
  | rti => exact h.returnFromInterrupt k
  | brk => exact absurd rfl hb
  | pha => exact h.push _ (h.dummyRead _ k)
  | php => exact h.push _ (h.dummyRead _ k)
  | pla => exact h.pullA k
  | plp => exact h.pullP k

end WriteClosed

/-- The reset sequence is reads and register changes after `need_reset` is dropped (R220). -/
theorem ReadClosed.resetSequence {R : State → State → Prop} (h : ReadClosed R) (s : State)
    (k : R s { s with lat := { s.lat with needReset := false } }) : R s s.resetSequence :=
  h.loadPc _ (h.setI _ (h.peekStack (h.peekStack (h.peekStack (h.dummyRead _ (h.dummyRead _ k))))))

/-- `need_nmi` is set after whatever led from `s` to `t` if it was set before. -/
def NmiKept (s t : State) : Prop := s.lat.needNmi = true → t.lat.needNmi = true

/-- The poll at the end of a cycle never clears `need_nmi` (R183). -/
theorem State.endCycle_nmiKept (s : State) (k : CycleKind) (a : Word) (d : Byte) (dma : Option Byte) :
    NmiKept s (s.endCycle k a d dma) := fun h => by
  simp [State.endCycle_lat, Latches.poll, h]

theorem nmiKept_cycles : CycleClosed NmiKept where
  refl := fun _ h => h
  trans := fun _ _ _ h k g => k (h g)
  read := fun s a h => State.endCycle_nmiKept (s.busRead a).2 _ _ _ _ (by simpa using h)
  write := fun s a v h => State.endCycle_nmiKept (s.busWrite a v).2 _ _ _ _ (by simpa using h)
  idle := fun s => State.endCycle_nmiKept s _ _ _ _

theorem nmiKept_closed : WriteClosed NmiKept where
  refl := nmiKept_cycles.refl
  trans := nmiKept_cycles.trans
  read := nmiKept_cycles.read
  regs := fun _ _ h => h
  write := fun s a v => nmiKept_cycles.memWrite s a v

/-- Settles O25: no cycle clears `need_nmi`, and outside the interrupt entry nothing but cycles touches it. -/
theorem nmiStaysPending : Obligations.NmiStaysPending :=
  ⟨fun _ _ _ hb hs he => nmiKept_closed.exec he hb hs, fun s => nmiKept_closed.resetSequence s (fun h => h)⟩

end Sys2Proof.Machine
end

section
/-! SUPPORT. The operation of an instruction by its mnemonic: `exec` as an equation, class by class. -/

namespace Sys2Proof.Machine

/-- What a class `R` instruction does with its operand, by mnemonic (R92 to R94, R111 to R119, R164 to R172, R178). -/
def readOp (k : Mnemonic) (v : Byte) (s : State) : State :=
  match k with
  | .LDA => opLda v s
  | .LDX => opLdx v s
  | .LDY => opLdy v s
  | .ADC => opAdc v s
  | .SBC => opSbc v s
  | .AND => opAnd v s
  | .ORA => opOra v s
  | .EOR => opEor v s
  | .BIT => opBit v s
  | .CMP => opCmp v s
  | .CPX => opCpx v s
  | .CPY => opCpy v s
  | .LAX => opLax v s
  | .LAS => opLas v s
  | .ANC => opAnc v s
  | .ALR => opAlr v s
  | .ARR => opArr v s
  | .ANE => opAne v s
  | .LXA => opLxa v s
  | .SBX => opSbx v s
  | .USBC => opUsbc v s
  | _ => opIgnore v s

/-- What a class `M` instruction does between its writes, by mnemonic (R120 to R125, R157 to R162). -/
def rmwOp (k : Mnemonic) (v : Byte) (s : State) : Byte × State :=
  match k with
  | .ASL => opAsl v s
  | .LSR => opLsr v s
  | .ROL => opRol v s
  | .ROR => opRor v s
  | .INC => opInc v s
  | .DEC => opDec v s
  | .SLO => opSlo v s
  | .RLA => opRla v s
  | .SRE => opSre v s
  | .RRA => opRra v s
  | .DCP => opDcp v s
  | .ISB => opIsb v s
  | _ => (v, s)

/-- What a class `implied` instruction does after its dummy read, by mnemonic (R98 to R103, R120 to R123, R126 to R129,
R148 to R155, R178, R179). -/
def impliedOp (k : Mnemonic) (s : State) : State :=
  match k with
  | .ASL => opAslA s
  | .LSR => opLsrA s
  | .ROL => opRolA s
  | .ROR => opRorA s
  | .INX => opInx s
  | .INY => opIny s
  | .DEX => opDex s
  | .DEY => opDey s
  | .TAX => opTax s
  | .TAY => opTay s
  | .TXA => opTxa s
  | .TYA => opTya s
  | .TSX => opTsx s
  | .TXS => opTxs s
  | .CLC => opClc s
  | .SEC => opSec s
  | .CLI => opCli s
  | .SEI => opSei s
  | .CLD => opCld s
  | .SED => opSed s
  | .CLV => opClv s
  | _ => opIdle s

/-! Every instruction of a class runs the class's sequence with the operation of its mnemonic (R79, R80, R87, R89). -/

theorem exec_imm {i : Instr} (hm : i.mode = .imm) (s : State) :
    exec i s = .next (s.runImm (readOp i.mnemonic)) := by
  cases i <;> first
    | (cases hm; done)
    | rfl

theorem exec_read {i : Instr} {m : MemMode} (h : i.accessClass = .read) (hm : memModeOf i.mode = some m) (s : State) :
    exec i s = .next (s.runRead m (readOp i.mnemonic)) := by
  cases i <;> first
    | (cases h; done)
    | (cases hm; done)
    | (cases hm; rfl)

theorem exec_rmw {i : Instr} {m : MemMode} (h : i.accessClass = .rmw) (hm : memModeOf i.mode = some m) (s : State) :
    exec i s = .next (s.runRmw m (rmwOp i.mnemonic)) := by
  cases i <;> first
    | (cases h; done)
    | (cases hm; rfl)

theorem exec_implied {i : Instr} (h : i.accessClass = .implied) (s : State) :
    exec i s = .next (s.runImplied (impliedOp i.mnemonic)) := by
  cases i <;> first
    | (cases h; done)
    | rfl

end Sys2Proof.Machine
end

section
/-! SUPPORT. Which registers an instruction may change (R17 to R19, R24 to R29). -/

namespace Sys2Proof.Machine

open Claims

/-! ## Flags the ALU leaves alone (R104 to R110, R168) -/

@[simp] theorem Flags.setNZ_c (p : Flags) (v : Byte) : (p.setNZ v).c = p.c := rfl
@[simp] theorem Flags.setNZ_i (p : Flags) (v : Byte) : (p.setNZ v).i = p.i := rfl
@[simp] theorem Flags.setNZ_d (p : Flags) (v : Byte) : (p.setNZ v).d = p.d := rfl
@[simp] theorem Flags.setNZ_v (p : Flags) (v : Byte) : (p.setNZ v).v = p.v := rfl

@[simp] theorem aluAdd_keeps_id (dec : Bool) (a m : Byte) (p : Flags) :
    (aluAdd dec a m p).2.i = p.i ∧ (aluAdd dec a m p).2.d = p.d := by
  unfold aluAdd
  split <;> exact ⟨rfl, rfl⟩

@[simp] theorem aluSub_keeps_id (dec : Bool) (a m : Byte) (p : Flags) :
    (aluSub dec a m p).2.i = p.i ∧ (aluSub dec a m p).2.d = p.d := ⟨rfl, rfl⟩

theorem arrDecimal_keeps_id (t r : Byte) (p : Flags) :
    (arrDecimal t r p).2.i = p.i ∧ (arrDecimal t r p).2.d = p.d := by
  unfold arrDecimal
  dsimp only
  split <;> exact ⟨rfl, rfl⟩

@[simp] theorem aluArr_keeps_id (dec : Bool) (a m : Byte) (p : Flags) :
    (aluArr dec a m p).2.i = p.i ∧ (aluArr dec a m p).2.d = p.d := by
  unfold aluArr
  dsimp only
  split
  · exact arrDecimal_keeps_id _ _ p
  · exact ⟨rfl, rfl⟩

/-! ## The registers after each sequence -/

/-- A branch moves PC and no other register (R130). -/
theorem State.runBranch_cpu (s : State) (cond : Flags → Bool) :
    ∃ pc, (s.runBranch cond).cpu = { s.cpu with pc := pc } := by
  unfold State.runBranch
  dsimp only
  split
  · rw [State.setPc_cpu]
    split <;> simp
  · exact ⟨_, State.fetch_cpu s⟩

/-- So do the jumps (R139). -/
theorem State.jumpAbs_cpu (s : State) : ∃ pc, s.jumpAbs.cpu = { s.cpu with pc := pc } :=
  ⟨s.jumpAbs.cpu.pc, by simp [State.jumpAbs, State.setPc_cpu]⟩

theorem State.jumpInd_cpu (s : State) : ∃ pc, s.jumpInd.cpu = { s.cpu with pc := pc } :=
  ⟨s.jumpInd.cpu.pc, by simp [State.jumpInd, State.setPc_cpu]⟩

/-- JSR pushes twice and moves PC (R140). -/
theorem State.jumpSub_cpu (s : State) : ∃ pc, s.jumpSub.cpu = { s.cpu with s := s.cpu.s - 1#8 - 1#8, pc := pc } :=
  ⟨s.jumpSub.cpu.pc, by simp [State.jumpSub, State.setPc_cpu]⟩

/-- RTS pulls twice and moves PC (R141). -/
theorem State.returnSub_cpu (s : State) : ∃ pc, s.returnSub.cpu = { s.cpu with s := s.cpu.s + 1#8 + 1#8, pc := pc } :=
  ⟨s.returnSub.cpu.pc, by simp [State.returnSub, State.setPc_cpu]⟩

/-- RTI pulls P, then PC (R142). -/
theorem State.returnFromInterrupt_cpu (s : State) : ∃ p pc,
    s.returnFromInterrupt.cpu = { s.cpu with s := s.cpu.s + 1#8 + 1#8 + 1#8, p := p, pc := pc } :=
  ⟨s.returnFromInterrupt.cpu.p, s.returnFromInterrupt.cpu.pc, by
    simp [State.returnFromInterrupt, State.setPc_cpu]⟩

@[simp] theorem State.selectVector_cpu (s : State) (d : Word) : (s.selectVector d).2.cpu = s.cpu := by
  unfold State.selectVector
  split <;> rfl

/-- An interrupt entry pushes three times, sets I and moves PC (R186). -/
theorem State.enterInterrupt_cpu (s : State) (b : Bool) : ∃ pc, (s.enterInterrupt b).cpu =
    { s.cpu with s := s.cpu.s - 1#8 - 1#8 - 1#8, p := s.cpu.p.setI true, pc := pc } :=
  ⟨(s.enterInterrupt b).cpu.pc, by simp [State.enterInterrupt, State.loadPc, State.setPc_cpu, State.setI]⟩

/-- So does BRK (R143). -/
theorem State.softwareInterrupt_cpu (s : State) : ∃ pc, s.softwareInterrupt.cpu =
    { s.cpu with s := s.cpu.s - 1#8 - 1#8 - 1#8, p := s.cpu.p.setI true, pc := pc } := by
  obtain ⟨pc, h⟩ := s.fetch.2.enterInterrupt_cpu true
  exact ⟨pc, by rw [State.softwareInterrupt, h, State.fetch_cpu]⟩

/-- PHA and PHP push once (R144, R145). -/
theorem State.pushA_cpu (s : State) : s.pushA.cpu = { s.cpu with s := s.cpu.s - 1#8 } := by
  simp [State.pushA]

theorem State.pushP_cpu (s : State) : s.pushP.cpu = { s.cpu with s := s.cpu.s - 1#8 } := by
  simp [State.pushP]

/-- PLA writes A, N and Z beside S (R146), PLP writes P (R147). -/
theorem State.pullA_cpu (s : State) : ∃ v,
    s.pullA.cpu = { s.cpu with s := s.cpu.s + 1#8, a := v, p := s.cpu.p.setNZ v } :=
  ⟨s.pullByte.1, by simp [State.pullA, State.loadA, State.mapP, State.setP_cpu, State.setA_cpu, State.pullByte]⟩

theorem State.pullP_cpu (s : State) : ∃ p, s.pullP.cpu = { s.cpu with s := s.cpu.s + 1#8, p := p } :=
  ⟨Flags.ofByte s.pullByte.1, by simp [State.pullP, State.setP_cpu, State.pullByte]⟩

theorem State.runWrite_cpu (s : State) (m : MemMode) (val : State → Byte) :
    (s.runWrite m val).cpu = { s.cpu with pc := s.cpu.pc + BitVec.ofNat 16 m.bytes } := by
  rw [State.runWrite_eq, State.memWrite_cpu, State.resolve_cpu]

theorem State.runHighAnd_cpu (s : State) (m : MemMode) (pre : State → State) (reg : State → Byte) :
    (s.runHighAnd m pre reg).cpu = (pre (s.resolve m .write).2).cpu := by
  rw [State.runHighAnd_eq, State.memWrite_cpu]

variable {i : Instr} {s t : State}

/-- TAS alone of the stores changes a register (R88, R177). -/
theorem exec_write_cpu (h : i.accessClass = .write) (hi : i ≠ .tasAby) (s : State) :
    ∃ t pc, exec i s = .next t ∧ t.cpu = { s.cpu with pc := pc } := by
  cases i
  case tasAby => exact absurd rfl hi
  case shaIzy => exact ⟨_, _, rfl, (State.runHighAnd_cpu s .izy id regSha).trans (State.resolve_cpu s _ _)⟩
  case shaAby => exact ⟨_, _, rfl, (State.runHighAnd_cpu s .aby id regSha).trans (State.resolve_cpu s _ _)⟩
  case shxAby => exact ⟨_, _, rfl, (State.runHighAnd_cpu s .aby id regShx).trans (State.resolve_cpu s _ _)⟩
  case shyAbx => exact ⟨_, _, rfl, (State.runHighAnd_cpu s .abx id regShy).trans (State.resolve_cpu s _ _)⟩
  all_goals first
    | (cases h; done)
    | exact ⟨_, _, rfl, State.runWrite_cpu s _ _⟩

/-- TAS puts A and X into S (R177). -/
theorem exec_tas_cpu (s : State) :
    ∃ t pc, exec .tasAby s = .next t ∧ t.cpu = { s.cpu with s := s.cpu.a &&& s.cpu.x, pc := pc } :=
  ⟨_, _, rfl, (State.runHighAnd_cpu s .aby preTas regTas).trans (by simp [preTas, State.setS_cpu]; rfl)⟩

/-! ## The registers written are those listed -/

/-- The registers of `d` are those of `c`, but for PC and for those whose rules list the instruction. -/
def WritesListed (i : Instr) (c d : Cpu) : Prop :=
  (writesA i = false → d.a = c.a) ∧ (writesX i = false → d.x = c.x) ∧
    (writesY i = false → d.y = c.y) ∧ (writesS i = false → d.s = c.s) ∧
    (writesC i = false → d.p.c = c.p.c) ∧ (writesV i = false → d.p.v = c.p.v) ∧
    (writesI i = false → d.p.i = c.p.i) ∧ (writesD i = false → d.p.d = c.p.d) ∧
    (writesNZ i = false → d.p.n = c.p.n ∧ d.p.z = c.p.z)

theorem WritesListed.refl (i : Instr) (c : Cpu) : WritesListed i c c := by simp [WritesListed]

/-- Where PC stands before makes no difference. -/
theorem WritesListed.of_pc {b c d : Cpu} {pc : Word} (h : WritesListed i c d) (hc : c = { b with pc := pc }) :
    WritesListed i b d := by
  subst hc
  exact h

/-- Any instruction may move PC. -/
theorem WritesListed.of_jump {c d : Cpu} {pc : Word} (hd : d = { c with pc := pc }) : WritesListed i c d := by
  subst hd
  exact .refl i c

/-- What moves S and PC. -/
theorem WritesListed.of_stack {c d : Cpu} {x : Byte} {pc : Word} (hs : writesS i = true)
    (hd : d = { c with s := x, pc := pc }) : WritesListed i c d := by
  subst hd
  simp [WritesListed, hs]

/-! What an operation writes, against the lists, mnemonic by mnemonic: the mnemonic decides which registers its lists
keep, and those the operation's own equations keep. -/

theorem readOp_writesListed (i : Instr) (v : Byte) (u : State) :
    WritesListed i u.cpu (readOp i.mnemonic v u).cpu := by
  unfold readOp
  split
  all_goals
    next hk =>
      simp [WritesListed, writesA, writesX, writesY, writesS, writesC, writesV, writesI, writesD, writesNZ, hk,
        State.loadA, State.loadX, State.loadY, State.putAP,
        opLda, opLdx, opLdy, opAdc, opSbc, opAnd, opOra, opEor, opBit, opCmp, opCpx, opCpy, opLax, opLas, opAnc, opAlr,
        opArr, opAne, opLxa, opSbx, opUsbc, opIgnore, aluCompare, aluBit, aluLsr]

theorem rmwOp_writesListed (i : Instr) (v : Byte) (u : State) :
    WritesListed i u.cpu (rmwOp i.mnemonic v u).2.cpu := by
  unfold rmwOp
  split
  all_goals
    next hk =>
      simp [WritesListed, writesA, writesX, writesY, writesS, writesC, writesV, writesI, writesD, writesNZ, hk,
        State.loadA, State.putAP, State.shiftByte, State.stepByte,
        aluCompare, aluAsl, aluLsr, aluRol, aluRor,
        opAsl, opLsr, opRol, opRor, opInc, opDec, opSlo, opRla, opSre, opRra, opDcp, opIsb]

/-- The shifts of class `implied` are those of the accumulator. -/
theorem mode_of_implied_shift {i : Instr} (h : i.accessClass = .implied)
    (hk : i.mnemonic = .ASL ∨ i.mnemonic = .LSR ∨ i.mnemonic = .ROL ∨ i.mnemonic = .ROR) : i.mode = .acc := by
  cases i <;> first
    | (cases h; done)
    | rfl
    | exact absurd hk (by decide)

theorem impliedOp_writesListed {i : Instr} (h : i.accessClass = .implied) (u : State) :
    WritesListed i u.cpu (impliedOp i.mnemonic u).cpu := by
  have acc := mode_of_implied_shift h
  unfold impliedOp
  split
  all_goals
    next hk =>
      simp [WritesListed, writesA, writesX, writesY, writesS, writesC, writesV, writesI, writesD, writesNZ, hk, acc,
        State.loadA, State.loadX, State.loadY, State.shiftA, State.shiftByte, State.setI,
        aluAsl, aluLsr, aluRol, aluRor,
        opAslA, opLsrA, opRolA, opRorA, opInx, opIny, opDex, opDey, opTax, opTay, opTxa, opTya, opTsx, opTxs, opClc,
        opSec, opCli, opSei, opCld, opSed, opClv, opIdle]

/-! Class by class: the operation, at registers that differ from those of before in PC only. -/

theorem exec_implied_writesListed (h : i.accessClass = .implied) (he : exec i s = .next t) :
    WritesListed i s.cpu t.cpu := by
  have k := impliedOp_writesListed h (s.dummyRead s.cpu.pc)
  rw [State.dummyRead_cpu] at k
  rw [exec_implied h, Host.Outcome.next.injEq] at he
  rw [← he]
  exact k

theorem exec_imm_writesListed (hm : i.mode = .imm) (he : exec i s = .next t) : WritesListed i s.cpu t.cpu := by
  rw [exec_imm hm, Host.Outcome.next.injEq, State.runImm_eq] at he
  rw [← he]
  exact (readOp_writesListed i _ _).of_pc (State.fetch_cpu s)

theorem exec_read_writesListed {m : MemMode} (h : i.accessClass = .read) (hm : memModeOf i.mode = some m)
    (he : exec i s = .next t) : WritesListed i s.cpu t.cpu := by
  rw [exec_read h hm, Host.Outcome.next.injEq, State.runRead_eq] at he
  rw [← he]
  exact (readOp_writesListed i _ _).of_pc ((State.memRead_cpu _ _).trans (State.resolve_cpu s m .read))

theorem exec_rmw_writesListed {m : MemMode} (h : i.accessClass = .rmw) (hm : memModeOf i.mode = some m)
    (he : exec i s = .next t) : WritesListed i s.cpu t.cpu := by
  rw [exec_rmw h hm, Host.Outcome.next.injEq, State.runRmw_eq] at he
  rw [← he, State.memWrite_cpu]
  exact (rmwOp_writesListed i _ _).of_pc (State.rmwOld_cpu s m)

theorem exec_write_writesListed (h : i.accessClass = .write) (he : exec i s = .next t) :
    WritesListed i s.cpu t.cpu := by
  by_cases hi : i = .tasAby
  · subst hi
    obtain ⟨u, pc, hu, hc⟩ := exec_tas_cpu s
    rw [he, Host.Outcome.next.injEq] at hu
    rw [hu, hc]
    simp [WritesListed, writesS, Instr.mnemonic]
  · obtain ⟨u, pc, hu, hc⟩ := exec_write_cpu h hi s
    rw [he, Host.Outcome.next.injEq] at hu
    rw [hu, hc]
    exact .refl i _

/-- Every instruction, by its sequence. -/
theorem exec_writesListed (he : exec i s = .next t) : WritesListed i s.cpu t.cpu := by
  cases runs_of_exec he with
  | implied h => exact exec_implied_writesListed h he
  | imm _ hm => exact exec_imm_writesListed hm he
  | read h hm => exact exec_read_writesListed h hm he
  | write h => exact exec_write_writesListed h he
  | highAnd h => exact exec_write_writesListed h he
  | rmw h hm => exact exec_rmw_writesListed h hm he
  | branch => exact (s.runBranch_cpu _).elim fun _ => .of_jump
  | jmpAbs => exact s.jumpAbs_cpu.elim fun _ => .of_jump
  | jmpInd => exact s.jumpInd_cpu.elim fun _ => .of_jump
  | jsr => exact s.jumpSub_cpu.elim fun _ => .of_stack rfl
  | rts => exact s.returnSub_cpu.elim fun _ => .of_stack rfl
  | pha => exact .of_stack rfl s.pushA_cpu
  | php => exact .of_stack rfl s.pushP_cpu
  | rti =>
    obtain ⟨p, pc, h⟩ := s.returnFromInterrupt_cpu
    rw [h]
    simp [WritesListed, writesS, writesC, writesV, writesI, writesD, writesNZ, Instr.mnemonic]
  | brk =>
    obtain ⟨pc, h⟩ := s.softwareInterrupt_cpu
    rw [h]
    simp [WritesListed, writesS, writesI, Instr.mnemonic]
  | pla =>
    obtain ⟨v, h⟩ := s.pullA_cpu
    rw [h]
    simp [WritesListed, writesA, writesS, writesNZ, Instr.mnemonic]
  | plp =>
    obtain ⟨p, h⟩ := s.pullP_cpu
    rw [h]
    simp [WritesListed, writesS, writesC, writesV, writesI, writesD, writesNZ, Instr.mnemonic]

/-- Settles O51: every instruction completes (`exec_runs`) and writes what the lists name (`exec_writesListed`). -/
theorem registerWriters : Obligations.RegisterWriters := by
  intro i s
  obtain ⟨t, he, -⟩ := exec_runs i s
  exact ⟨t, he, exec_writesListed he⟩

end Sys2Proof.Machine
end

section
/-! SUPPORT. The byte form of P and the PPU's register writes, bit by bit (R22, R23, R36, R200, R201). -/

namespace Sys2Proof.Machine

/-! ## The byte form of P (R22, R23) -/

/-- The bits of the byte form, from bit 0 up. -/
theorem Flags.toByte_getLsbD (p : Flags) (b : Bool) {k : Nat} (hk : k < 8) :
    (p.toByte b).getLsbD k = [p.c, p.z, p.i, p.d, b, true, p.v, p.n].getD k false := by
  unfold Flags.toByte
  refine BitVec.getLsbD_append.trans ?_
  simp only [BitVec.getLsbD_append, BitVec.getLsbD_ofBool]
  interval_cases k <;> rfl

/-- The byte form as a number. -/
theorem Flags.toByte_toNat (p : Flags) (b : Bool) : (p.toByte b).toNat = p.n.toNat * 128 + p.v.toNat * 64 + 32 +
    b.toNat * 16 + p.d.toNat * 8 + p.i.toNat * 4 + p.z.toNat * 2 + p.c.toNat := by
  obtain ⟨c, z, i, d, v, n⟩ := p
  revert c z i d v n b
  decide

/-- Loading P from its byte form restores it (R23). -/
theorem Flags.ofByte_toByte (p : Flags) (b : Bool) : Flags.ofByte (p.toByte b) = p := by
  simp only [Flags.ofByte, Flags.toByte_getLsbD, Nat.reduceLT]
  rfl

/-- A byte loaded into P keeps its flag bits; bits 5 and 4 become 1 and B (R22, R23). -/
theorem Flags.toByte_ofByte (m : Byte) (b : Bool) :
    (Flags.ofByte m).toByte b = (m &&& 0xCF#8) ||| (if b then 0x30#8 else 0x20#8) := by
  apply BitVec.eq_of_getLsbD_eq
  intro k hk
  rw [Flags.toByte_getLsbD _ _ hk]
  interval_cases k <;> cases b <;> simp [Flags.ofByte]

/-- Settles O44: bit by bit. -/
theorem statusByteForm : Obligations.StatusByteForm :=
  fun p b m => ⟨p.toByte_toNat b, p.ofByte_toByte b, Flags.toByte_ofByte m b⟩

/-! ## The loopy latch (R36) -/

/-- The bits of a loopy register, field by field. -/
theorem packV_getLsbD (fy : BitVec 3) (ny nx : BitVec 1) (cy cx : BitVec 5) (k : Nat) :
    (packV fy ny nx cy cx).getLsbD k =
      if k < 5 then cx.getLsbD k else if k < 10 then cy.getLsbD (k - 5) else if k < 11 then nx.getLsbD (k - 10)
      else if k < 12 then ny.getLsbD (k - 11) else fy.getLsbD (k - 12) := by
  unfold packV
  refine BitVec.getLsbD_append.trans ?_
  simp only [BitVec.getLsbD_append, Nat.sub_sub]
  split
  · rfl
  · grind

/-- The fields of a loopy register are those it was put together from. -/
@[simp] theorem packV_fields (fy : BitVec 3) (ny nx : BitVec 1) (cy cx : BitVec 5) :
    fineY (packV fy ny nx cy cx) = fy ∧ ntY (packV fy ny nx cy cx) = ny ∧ ntX (packV fy ny nx cy cx) = nx ∧
      coarseY (packV fy ny nx cy cx) = cy ∧ coarseX (packV fy ny nx cy cx) = cx := by
  unfold fineY ntY ntX coarseY coarseX
  refine ⟨?_, ?_, ?_, ?_, ?_⟩ <;>
  · apply BitVec.eq_of_getLsbD_eq
    intro k hk
    rw [BitVec.getLsbD_extractLsb', packV_getLsbD]
    grind

/-- The bits of a 15-bit value put together from a low byte and what stands above it. -/
theorem getLsbD_aboveByte {hi lo k : Nat} (hlo : lo < 256) (hk : k < 15) :
    (BitVec.ofNat 15 (hi * 256 + lo)).getLsbD k = if k < 8 then lo.testBit k else hi.testBit (k - 8) := by
  rw [BitVec.getLsbD_ofNat, decide_eq_true hk, Bool.true_and, Nat.mul_comm]
  exact Nat.testBit_two_pow_mul_add hi (i := 8) hlo k

variable (t : VAddr) (d : Byte)

/-- A first SCROLL write sets coarse X. -/
theorem scrollLatch_first :
    (t &&& 0x7FE0#15) ||| ((d >>> 3).setWidth 15) =
    packV (fineY t) (ntY t) (ntX t) (coarseY t) ((d >>> 3).setWidth 5) := by
  apply BitVec.eq_of_getLsbD_eq
  intro k hk
  rw [packV_getLsbD]
  interval_cases k <;> simp [fineY, ntY, ntX, coarseY]

/-- A second SCROLL write sets fine and coarse Y. -/
theorem scrollLatch_second :
    (t &&& 0x0C1F#15) ||| (((d &&& 0x07#8).setWidth 15) <<< 12) ||| (((d >>> 3).setWidth 15) <<< 5) =
    packV (d.setWidth 3) (ntY t) (ntX t) ((d >>> 3).setWidth 5) (coarseX t) := by
  apply BitVec.eq_of_getLsbD_eq
  intro k hk
  rw [packV_getLsbD]
  interval_cases k <;> simp [coarseX, ntY, ntX]

/-- A CTRL write sets the nametable bits. -/
theorem ctrlLatch :
    (t &&& 0x73FF#15) ||| (((d &&& 0x03#8).setWidth 15) <<< 10) =
    packV (fineY t) (d.extractLsb' 1 1) (d.extractLsb' 0 1) (coarseY t) (coarseX t) := by
  apply BitVec.eq_of_getLsbD_eq
  intro k hk
  rw [packV_getLsbD]
  interval_cases k <;> simp [fineY, coarseX, coarseY]

/-- A first ADDR write sets the bits above the low byte and clears bit 14. -/
theorem addrLatch_first : (t &&& 0x00FF#15) ||| (((d &&& 0x3F#8).setWidth 15) <<< 8) =
    BitVec.ofNat 15 (d.toNat % 64 * 256 + t.toNat % 256) := by
  apply BitVec.eq_of_getLsbD_eq
  intro k hk
  rw [getLsbD_aboveByte (Nat.mod_lt _ (by decide)) hk, Nat.testBit_mod_two_pow _ 8, Nat.testBit_mod_two_pow _ 6,
    BitVec.testBit_toNat, BitVec.testBit_toNat]
  interval_cases k <;> simp

/-- A second ADDR write sets the low byte. -/
theorem addrLatch_second : (t &&& 0x7F00#15) ||| d.setWidth 15 =
    BitVec.ofNat 15 (t.toNat / 256 * 256 + d.toNat) := by
  apply BitVec.eq_of_getLsbD_eq
  intro k hk
  rw [getLsbD_aboveByte d.isLt hk, Nat.testBit_div_two_pow (n := 8), BitVec.testBit_toNat, BitVec.testBit_toNat]
  interval_cases k <;> simp

/-! ## The ports that write `t` (R200) -/

theorem Ppu.addrWrite_first {p : Ppu} (h : p.w = false) : p.addrWrite d = { p with
      t := BitVec.ofNat 15 (d.toNat % 64 * 256 + p.t.toNat % 256), w := true } := by
  unfold Ppu.addrWrite
  rw [if_neg (by simp [h]), addrLatch_first]

theorem Ppu.addrWrite_second {p : Ppu} (h : p.w = true) : p.addrWrite d = { p with
      t := BitVec.ofNat 15 (p.t.toNat / 256 * 256 + d.toNat)
      v := BitVec.ofNat 15 (p.t.toNat / 256 * 256 + d.toNat), w := false } := by
  unfold Ppu.addrWrite
  rw [if_pos h, addrLatch_second]

theorem Ppu.scrollWrite_first {p : Ppu} (h : p.w = false) : p.scrollWrite d = { p with
      t := packV (fineY p.t) (ntY p.t) (ntX p.t) (coarseY p.t) ((d >>> 3).setWidth 5)
      fineX := d.setWidth 3
      w := true } := by
  unfold Ppu.scrollWrite
  rw [if_neg (by simp [h]), scrollLatch_first]

theorem Ppu.scrollWrite_second {p : Ppu} (h : p.w = true) : p.scrollWrite d = { p with
      t := packV (d.setWidth 3) (ntY p.t) (ntX p.t) ((d >>> 3).setWidth 5) (coarseX p.t), w := false } := by
  unfold Ppu.scrollWrite
  rw [if_pos h, scrollLatch_second]

theorem Ppu.ctrlWrite_eq (p : Ppu) : p.ctrlWrite d = { p with
      ctrl := d
      t := packV (fineY p.t) (d.extractLsb' 1 1) (d.extractLsb' 0 1) (coarseY p.t) (coarseX p.t) } := by
  unfold Ppu.ctrlWrite
  rw [ctrlLatch]

/-- ADDR written twice holds both bytes. -/
theorem Ppu.addrWrite_pair {p : Ppu} (x y : Byte) (h : p.w = false) : (p.addrWrite x).addrWrite y = { p with
      v := BitVec.ofNat 15 (x.toNat % 64 * 256 + y.toNat), t := BitVec.ofNat 15 (x.toNat % 64 * 256 + y.toNat) } := by
  have high : (BitVec.ofNat 15 (x.toNat % 64 * 256 + p.t.toNat % 256)).toNat / 256 = x.toNat % 64 := by
    rw [BitVec.toNat_ofNat]
    omega
  rw [Ppu.addrWrite_first x h, Ppu.addrWrite_second y rfl]
  dsimp only
  rw [high, ← h]

/-- SCROLL written twice sets the five scroll fields and keeps the nametable bits. -/
theorem Ppu.scrollWrite_pair {p : Ppu} (x y : Byte) (h : p.w = false) : (p.scrollWrite x).scrollWrite y = { p with
      t := packV (y.setWidth 3) (ntY p.t) (ntX p.t) ((y >>> 3).setWidth 5) ((x >>> 3).setWidth 5)
      fineX := x.setWidth 3 } := by
  rw [Ppu.scrollWrite_first x h, Ppu.scrollWrite_second y rfl]
  dsimp only
  simp only [packV_fields, ← h]

/-- Settles O56: SCROLL, ADDR and CTRL by what they make of `t`; the other ports are their definition. -/
theorem ppuRegisterWrites : Obligations.PpuRegisterWrites := by
  intro p c x y
  exact ⟨Ppu.scrollWrite_first x, Ppu.scrollWrite_second x, Ppu.addrWrite_first x, Ppu.addrWrite_second x,
    Ppu.addrWrite_pair x y, Ppu.scrollWrite_pair x y, Ppu.ctrlWrite_eq x p, rfl, rfl, rfl, rfl, rfl⟩

end Sys2Proof.Machine
end

section
/-! SUPPORT. The bus: the NES decode range by range, `peek` against a bus read, one cycle's sub-steps, what a write
leaves in memory, and OAM DMA. -/

namespace Sys2Proof.Machine

open Sys2Proof.Claims

/-! ## The NES decode (R52, R53) -/

section NesDecode

variable (s : State) (a : Word) (v : Byte)

theorem State.busRead_nes {s : State} (h : s.params.bus = .nes) : s.busRead a = s.nesRead a := by
  unfold State.busRead
  rw [h]

theorem State.busWrite_nes {s : State} (h : s.params.bus = .nes) : s.busWrite a v = s.nesWrite a v := by
  unfold State.busWrite
  rw [h]

variable {a}

theorem State.nesRead_ram (h : a.toNat < 0x2000) : s.nesRead a = (s.ram.read (a.toNat % 0x800), s) := if_pos h

theorem State.nesRead_ppu (lo : 0x2000 ≤ a.toNat) (hi : a.toNat < 0x4000) : s.nesRead a =
    ((s.ppu.readRegister s.cart (a.toNat % 8)).1, { s with ppu := (s.ppu.readRegister s.cart (a.toNat % 8)).2 }) := by
  simp (disch := omega) only [State.nesRead, if_pos, if_neg]

theorem State.nesRead_unused
    (h : (0x4000 ≤ a.toNat ∧ a.toNat ≤ 0x4014) ∨ (0x4018 ≤ a.toNat ∧ a.toNat ≤ 0x401F)) :
    s.nesRead a = (0x00#8, s) := by
  simp (disch := omega) only [State.nesRead, if_pos, if_neg]

theorem State.nesRead_cart (h : 0x4020 ≤ a.toNat) : s.nesRead a = (s.cart.readPrg a.toNat, s) := by
  simp (disch := omega) only [State.nesRead, if_neg]

theorem State.nesWrite_ram (h : a.toNat < 0x2000) :
    s.nesWrite a v = (none, { s with ram := s.ram.write (a.toNat % 0x800) v }) := if_pos h

theorem State.nesWrite_ppu (lo : 0x2000 ≤ a.toNat) (hi : a.toNat < 0x4000) :
    s.nesWrite a v = (none, { s with ppu := s.ppu.writeRegister s.cart (a.toNat % 8) v }) := by
  simp (disch := omega) only [State.nesWrite, if_pos, if_neg]

/-- The APU has every address of its range but the DMA trigger and the controller strobe. -/
theorem State.nesWrite_apu (lo : 0x4000 ≤ a.toNat) (hi : a.toNat ≤ 0x4017) (dma : a.toNat ≠ 0x4014)
    (pad : a.toNat ≠ 0x4016) : s.nesWrite a v = (none, s.callExt (.apuWrite a v)) := by
  simp (disch := omega) only [State.nesWrite, if_pos, if_neg]

theorem State.nesWrite_unused (lo : 0x4018 ≤ a.toNat) (hi : a.toNat ≤ 0x401F) : s.nesWrite a v = (none, s) := by
  simp (disch := omega) only [State.nesWrite, if_pos, if_neg]

theorem State.nesWrite_cart (h : 0x4020 ≤ a.toNat) :
    s.nesWrite a v = (none, { s with cart := s.cart.writePrg a.toNat v }) := by
  simp (disch := omega) only [State.nesWrite, if_neg]

end NesDecode

/-- Settles O17: range by range; the single addresses are computed. -/
theorem nesAddressDecode : Obligations.NesAddressDecode := by
  intro s a nes
  rw [State.busRead_nes a nes]
  refine ⟨s.nesRead_ram, s.nesRead_ppu, ?_, ?_, ?_, s.nesRead_unused, s.nesRead_cart, fun v => ?_⟩
  · rintro rfl; rfl
  · rintro rfl; rfl
  · rintro rfl; rfl
  rw [State.busWrite_nes a v nes]
  refine ⟨s.nesWrite_ram v, s.nesWrite_ppu v, ?_, ?_, ?_, s.nesWrite_unused v, s.nesWrite_cart v⟩
  · rintro rfl; rfl
  · rintro rfl; rfl
  · rintro (⟨lo, hi⟩ | rfl | rfl)
    · exact s.nesWrite_apu v lo (by omega) (by omega) (by omega)
    · rfl
    · rfl

/-! ## Peek (R61) -/

/-- `peek` refuses the device window of the NES bus and nothing else. -/
theorem State.peek_eq_none_iff (s : State) (a : Word) :
    s.peek a = none ↔ s.params.bus = .nes ∧ 0x2000 ≤ a.toNat ∧ a.toNat < 0x4020 := by
  unfold State.peek
  cases s.params.bus with
  | flat => simp
  | nes =>
    dsimp only
    split
    · next ram => simp [ram]
    · next notRam =>
      split
      · next window => simp [window, Nat.le_of_not_lt notRam]
      · next cart => simp [cart]

/-- Settles O18: the refused window, and `State.busRead_of_peek` where `peek` answers. -/
theorem peekAgreesWithRead : Obligations.PeekAgreesWithRead :=
  fun s a => ⟨s.peek_eq_none_iff a, fun _ => State.busRead_of_peek⟩

/-! ## One cycle (R44 to R47, R183) -/

/-- The end of a cycle whose bus exchange left `u`, in terms of the state `s` the cycle began in: an exchange changes
neither the count, the inputs, the latches, the registers nor the log. -/
theorem State.endCycle_eq_cycleEnd {s u : State} (cycles : u.cycles = s.cycles) (inputs : u.inputs = s.inputs)
    (lat : u.lat = s.lat) (cpu : u.cpu = s.cpu) (busLog : u.busLog = s.busLog) (k : CycleKind) (a : Word) (d : Byte)
    (dma : Option Byte) : u.endCycle k a d dma = cycleEnd s u k a d dma := by
  simp [State.endCycle, cycleEnd, Latches.poll, cycles, inputs, lat, cpu, busLog]

/-- Settles O16: each kind of cycle is its exchange and the end of a cycle; the clock is that of the bus. -/
theorem cycleSubSteps : Obligations.CycleSubSteps := by
  refine fun s a v => ⟨Prod.ext rfl ?_, Prod.ext rfl ?_, ?_, s.busClock_nes, s.busClock_flat⟩
  · rw [State.memRead_snd]
    exact State.endCycle_eq_cycleEnd (by simp) (by simp) (by simp) (by simp) (by simp) ..
  · rw [State.writeCycle_snd]
    exact State.endCycle_eq_cycleEnd (by simp) (by simp) (by simp) (by simp) (by simp) ..
  · exact State.endCycle_eq_cycleEnd rfl rfl rfl rfl rfl ..

/-! ## A write (R56, R59, R62) -/

/-- Settles O19: a write seen through `peek` is its bus exchange, also where it starts DMA. -/
theorem memoryReadAfterWrite : Obligations.MemoryReadAfterWrite :=
  fun _ _ v wf => ⟨State.memWrite_peek_same v wf, fun _ => State.memWrite_peek_other v wf⟩

/-! ## OAM DMA (R195) -/

/-- The end of a cycle leaves OAM and its address alone. -/
theorem State.endCycle_oam (s : State) (k : CycleKind) (a : Word) (d : Byte) (dma : Option Byte) :
    (s.endCycle k a d dma).ppu.oam = s.ppu.oam ∧ (s.endCycle k a d dma).ppu.oamAddr = s.ppu.oamAddr := by
  obtain ⟨-, -, oam, -, -, -, -, -, oamAddr, -⟩ := s.endCycle_port k a d dma
  exact ⟨oam, oamAddr⟩

/-- A well-formed NES machine whose page `page` is memory and holds `bytes`. -/
structure DmaSource (page : Byte) (bytes : Byte → Byte) (s : State) : Prop where
  nes   : s.params.bus = .nes
  wf    : s.wf = true
  holds : ∀ n, s.peek (joinBytes page n) = some (bytes n)

section Dma

variable {page : Byte} {bytes : Byte → Byte} {s : State}

/-- Cycles that leave CPU memory alone leave the source page alone. -/
theorem DmaSource.of_cpuMemory {t : State} (h : DmaSource page bytes s) (wf : t.wf = true)
    (same : t.params = s.params ∧ t.ram = s.ram ∧ t.cart = s.cart) : DmaSource page bytes t := by
  obtain ⟨params, ram, cart⟩ := same
  exact ⟨params ▸ h.nes, wf, fun n => (State.peek_congr params ram cart _).trans (h.holds n)⟩

/-- The OAM data port, which the copy writes to (R200). -/
theorem State.busWrite_oamData (v : Byte) (nes : s.params.bus = .nes) :
    s.busWrite 0x2004#16 v = (none, { s with ppu := s.ppu.oamWrite v }) := State.busWrite_nes _ v nes

theorem State.dmaPair_eq (s : State) (page i : Byte) : s.dmaPair page i =
    ((s.memRead (joinBytes page i)).2.writeCycle 0x2004#16 (s.memRead (joinBytes page i)).1).2 := rfl

@[simp] theorem State.dmaPair_logged (s : State) (page i : Byte) : (s.dmaPair page i).logged = s.logged + 2 := by
  simp [State.dmaPair_eq]

theorem DmaSource.dmaPair (h : DmaSource page bytes s) (i : Byte) : DmaSource page bytes (s.dmaPair page i) := by
  refine h.of_cpuMemory (cycleClosed_wf.trans _ _ _ (cycleClosed_wf.read s _) (cycleClosed_wf.write _ _ _) h.wf) ?_
  exact (s.dmaPair_cpuMemory page i).resolve_right (by simp [h.nes])

/-- One pair writes the source byte at the OAM address, which moves on by one. -/
theorem DmaSource.dmaPair_oam (h : DmaSource page bytes s) (i : Byte) :
    (s.dmaPair page i).ppu.oam = s.ppu.oam.write s.ppu.oamAddr.toNat (bytes i) ∧
      (s.dmaPair page i).ppu.oamAddr = s.ppu.oamAddr + 1#8 := by
  obtain ⟨readOam, readAddr⟩ := s.endCycle_oam .read (joinBytes page i) (bytes i) none
  have read : (s.memRead (joinBytes page i)).2 = s.endCycle .read (joinBytes page i) (bytes i) none := by
    rw [State.memRead_snd, State.busRead_of_peek (h.holds i)]
  rw [State.dmaPair_eq, State.memRead_of_peek (h.holds i), State.writeCycle_snd,
    State.busWrite_oamData _ (by simp [h.nes]), read]
  obtain ⟨writeOam, writeAddr⟩ := State.endCycle_oam
    { s.endCycle .read (joinBytes page i) (bytes i) none with
      ppu := (s.endCycle .read (joinBytes page i) (bytes i) none).ppu.oamWrite (bytes i) }
    .write 0x2004#16 (bytes i) none
  rw [writeOam, writeAddr, ← readOam, ← readAddr]
  exact ⟨rfl, rfl⟩

theorem State.dmaCopy_logged (s : State) (page : Byte) (n : Nat) (i : Byte) :
    (State.dmaCopy page n i s).logged = s.logged + 2 * n := by
  induction n generalizing i s with
  | zero => rfl
  | succ n ih =>
    rw [State.dmaCopy, ih, State.dmaPair_logged]
    omega

theorem DmaSource.dmaCopy_oamAddr (h : DmaSource page bytes s) (n : Nat) (i : Byte) :
    (State.dmaCopy page n i s).ppu.oamAddr = s.ppu.oamAddr + BitVec.ofNat 8 n := by
  induction n generalizing i s with
  | zero => simp [State.dmaCopy]
  | succ n ih =>
    rw [State.dmaCopy, ih (h.dmaPair i), (h.dmaPair_oam i).2, BitVec.add_assoc, ← BitVec.ofNat_add, Nat.add_comm 1]

/-- `n` pairs fill `n` bytes of OAM from the OAM address up, with wrap, and leave the rest of it as it was: `m` bytes
above that address stands the source byte `m` above index `i`. The pairs after the first are a copy that begins one
byte further on in both, so `m` is `m - 1` to them. -/
theorem DmaSource.dmaCopy_oam (h : DmaSource page bytes s) (n : Nat) (i m : Byte) :
    (State.dmaCopy page n i s).ppu.oam.read (s.ppu.oamAddr + m).toNat =
      if m.toNat < n then bytes (i + m) else s.ppu.oam.read (s.ppu.oamAddr + m).toNat := by
  induction n generalizing i m s with
  | zero => rfl
  | succ n ih =>
    obtain ⟨-, -, -, -, ppu⟩ := (State.wf_iff s).mp h.wf
    obtain ⟨-, -, oamWf, -⟩ := (Ppu.wf_iff _).mp ppu
    obtain ⟨oam, oamAddr⟩ := h.dmaPair_oam i
    have shift : ∀ x : Byte, x + 1#8 + (m - 1#8) = x + m := fun x => by
      rw [BitVec.add_assoc, BitVec.add_comm 1#8, BitVec.sub_add_cancel]
    have rest := ih (h.dmaPair i) (i + 1#8) (m - 1#8)
    rw [oamAddr, oam, shift, shift, Memory.read_write _ _ oamWf] at rest
    rw [State.dmaCopy, rest]
    by_cases first : m = 0#8
    · -- the first byte; pairs that come round to it again write the same one
      subst first
      simp
    · have pred : (m - 1#8).toNat = m.toNat - 1 := by bv_omega
      have pos : 0 < m.toNat := by bv_omega
      have other : ¬ (s.ppu.oamAddr + m).toNat = s.ppu.oamAddr.toNat := by bv_omega
      rw [pred, if_neg other]
      exact if_congr (by omega) rfl rfl

/-- The state the copy begins in: after the alignment cycle, where `cycles` is odd (D26). -/
def State.dmaStart (s : State) : State := if s.cycles.getLsbD 0 then s.idleCycle else s

theorem State.runDma_eq (s : State) (page : Byte) : s.runDma page = State.dmaCopy page 256 0#8 s.dmaStart := rfl

/-- The alignment cycle leaves OAM and its address alone. -/
theorem State.dmaStart_oam (s : State) :
    s.dmaStart.ppu.oam = s.ppu.oam ∧ s.dmaStart.ppu.oamAddr = s.ppu.oamAddr := by
  unfold State.dmaStart
  split
  · exact s.endCycle_oam _ _ _ _
  · exact ⟨rfl, rfl⟩

theorem State.dmaStart_logged (s : State) :
    s.dmaStart.logged = s.logged + if s.cycles.getLsbD 0 then 1 else 0 := by
  unfold State.dmaStart
  split
  · simp [State.logged, State.idleCycle, State.endCycle_busLog]
  · rfl

theorem DmaSource.dmaStart (h : DmaSource page bytes s) : DmaSource page bytes s.dmaStart := by
  unfold State.dmaStart
  split
  · exact h.of_cpuMemory (cycleClosed_wf.idle s h.wf) (by simp)
  · exact h

/-- The 256 pairs fill all of OAM with the source page. -/
theorem DmaSource.runDma_oam (h : DmaSource page bytes s) (n : Byte) :
    (s.runDma page).ppu.oam.read (s.ppu.oamAddr + n).toNat = bytes n := by
  rw [State.runDma_eq, ← s.dmaStart_oam.2, h.dmaStart.dmaCopy_oam, if_pos n.isLt, BitVec.zero_add]

/-- After 256 pairs the OAM address is back where it was. -/
theorem DmaSource.runDma_oamAddr (h : DmaSource page bytes s) : (s.runDma page).ppu.oamAddr = s.ppu.oamAddr := by
  rw [State.runDma_eq, h.dmaStart.dmaCopy_oamAddr, s.dmaStart_oam.2]
  exact BitVec.add_zero _

end Dma

@[simp] theorem State.runDma_cpu (s : State) (page : Byte) : (s.runDma page).cpu = s.cpu :=
  CycleClosed.runDma s (cycleClosed_field State.cpu (by simp) (by simp) (by simp)) page

theorem State.runDma_logged (s : State) (page : Byte) :
    (s.runDma page).logged = s.logged + if s.cycles.getLsbD 0 then 513 else 512 := by
  rw [State.runDma_eq, State.dmaCopy_logged, State.dmaStart_logged]
  split <;> rfl

/-- Settles O20: which write starts DMA, and what its 256 pairs do from a source page that is memory. -/
theorem dmaCopiesPage : Obligations.DmaCopiesPage := by
  refine ⟨fun s a v => ⟨?_, fun other => ?_⟩, fun s page nes wf readable => ?_⟩
  · rintro ⟨nes, rfl⟩
    exact s.memWrite_dma v nes
  · rw [s.memWrite_single a v other]
    exact ⟨rfl, s.writeCycle_logged a v⟩
  · choose bytes holds using readable
    have source : DmaSource page bytes s := ⟨nes, wf, holds⟩
    obtain ⟨params, ram, cart⟩ := s.runDma_cpuMemory page nes
    exact ⟨fun n => by rw [source.runDma_oam, holds], source.runDma_oamAddr, s.runDma_cpu page,
      State.peek_congr params ram cart, s.runDma_logged page⟩

end Sys2Proof.Machine
end

section
/-! SUPPORT. The encoding: the opcode map against the opcodes of the rules, the decoder against the encoder, and the
step that decodes (R67 to R74, R185). -/

namespace Sys2Proof

/-! ## The opcode byte (R71, R72, R74) -/

/-- Row `hi`, column `lo` of the opcode map holds the instruction with opcode `hi * 16 + lo` (R72). -/
theorem opcodeMap_opcode : ∀ hi < 16, ∀ lo < 16,
    ((opcodeMap.getD hi []).getD lo .nop).opcode = BitVec.ofNat 8 (hi * 16 + lo) := by
  decide

@[simp] theorem opcode_decodeOpcode (b : Byte) : (decodeOpcode b).opcode = b := by
  have row : b.toNat / 16 < 16 := Nat.div_lt_of_lt_mul b.isLt
  have col : b.toNat % 16 < 16 := Nat.mod_lt _ (by decide)
  rw [decodeOpcode, opcodeMap_opcode _ row _ col, Nat.div_add_mod', BitVec.ofNat_toNat, BitVec.setWidth_eq]

@[simp] theorem decodeOpcode_opcode (i : Instr) : decodeOpcode i.opcode = i := by
  cases i <;> rfl

/-! ## Instructions and byte lists (R67, R68) -/

theorem Assembled.wellFormed_iff (a : Assembled) :
    a.wellFormed = true ↔ a.operands.length = a.instr.operandCount := by
  rw [Assembled.wellFormed, beq_iff_eq]

/-- What it is to decode to `a` with `rest` left over: the opcode says which instruction, and the bytes after it are
its operand bytes, as many as its mode takes, then `rest`. -/
theorem decode_cons_eq_ok_iff {b : Byte} {bs : List Byte} {a : Assembled} {rest : List Byte} :
    decode (b :: bs) = .ok (a, rest) ↔
      a.instr = decodeOpcode b ∧ a.wellFormed = true ∧ a.operands ++ rest = bs := by
  rw [Assembled.wellFormed_iff]
  constructor
  · intro decodes
    rw [decode] at decodes
    split at decodes
    · cases decodes
    · next enough =>
      cases decodes
      exact ⟨rfl, List.length_take_of_le (Nat.le_of_not_lt enough), List.take_append_drop _ _⟩
  · obtain ⟨i, operands⟩ := a
    rintro ⟨rfl, count, rfl⟩
    have enough : ¬ (operands ++ rest).length < (decodeOpcode b).operandCount := by
      rw [List.length_append, count]
      exact Nat.not_lt.2 (Nat.le_add_right _ _)
    rw [decode, if_neg enough, ← count, List.take_left, List.drop_left]

/-- Decoding fails only where operand bytes are missing (R74). -/
theorem exists_decode_cons_eq_ok_iff (b : Byte) (bs : List Byte) :
    (∃ r, decode (b :: bs) = .ok r) ↔ (decodeOpcode b).operandCount ≤ bs.length := by
  rw [decode]
  split
  · next missing => simp [missing]
  · next enough => simp [Nat.le_of_not_lt enough]

/-- Settles O2: the opcode decodes to its instruction, and the operand bytes are as many as it takes. -/
theorem decodeOfEncode : Obligations.DecodeOfEncode :=
  fun a _ wf => decode_cons_eq_ok_iff.2 ⟨(decodeOpcode_opcode a.instr).symm, wf, rfl⟩

/-- Settles O3: the decoded instruction's opcode is the first byte, and its operand bytes head the others. -/
theorem encodeOfDecode : Obligations.EncodeOfDecode := by
  intro bs a rest decodes
  cases bs with
  | nil => cases decodes
  | cons b bs =>
    obtain ⟨instr, wf, operands⟩ := decode_cons_eq_ok_iff.1 decodes
    refine ⟨wf, ?_⟩
    rw [encode, instr, opcode_decodeOpcode, List.cons_append, operands]

/-- Settles O4: the opcode map read both ways, and the one way decoding fails. -/
theorem decoderIsTotal : Obligations.DecoderIsTotal :=
  ⟨opcode_decodeOpcode, decodeOpcode_opcode, exists_decode_cons_eq_ok_iff⟩

/-- Settles O1: each word by computation. -/
theorem knownWordsDecode : Obligations.KnownWordsDecode :=
  ⟨rfl, rfl, rfl, rfl, rfl, rfl, rfl, rfl, rfl, rfl, rfl, rfl⟩

end Sys2Proof

namespace Sys2Proof.Machine

/-! ## The step that decodes (R71, R185) -/

theorem State.handleEvents_cpu {s u : State} (drained : s.handleEvents = some u) : u.cpu = s.cpu := by
  rw [State.handleEvents_eq drained]

theorem State.handleEvents_peek {s u : State} (drained : s.handleEvents = some u) (a : Word) :
    u.peek a = s.peek a := by
  rw [State.handleEvents_eq drained]
  rfl

theorem State.fetch_of_peek {s : State} {b : Byte} (holds : s.peek s.cpu.pc = some b) : s.fetch.1 = b := by
  rw [State.fetch_fst, State.memRead_of_peek holds]

theorem step_of_nothing_pending {s u : State} (drained : s.handleEvents = some u) (noReset : u.lat.needReset = false)
    (noNmi : u.lat.prevNeedNmi = false) (noIrq : u.lat.prevIrq = false) :
    step s = exec (decodeOpcode u.fetch.1) u.fetch.2 := by
  simp [step, drained, noReset, noNmi, noIrq]

/-- Settles O5: draining the queue changes neither the registers nor what `peek` sees, so the byte at PC is the one
fetched. -/
theorem stepRunsDecodedInstruction : Obligations.StepRunsDecodedInstruction := by
  intro s u drained noReset noNmi noIrq
  have runs := step_of_nothing_pending drained noReset noNmi noIrq
  have cpu := State.handleEvents_cpu drained
  refine ⟨runs, by rw [State.fetch_cpu, cpu], fun b bs a rest holds decodes => ?_⟩
  obtain ⟨instr, -, -⟩ := decode_cons_eq_ok_iff.1 decodes
  have fetched : u.fetch.1 = b := State.fetch_of_peek (by rw [State.handleEvents_peek drained, cpu, holds])
  rw [runs, fetched, instr]

end Sys2Proof.Machine
end

section
/-! SUPPORT. The branches: their sequence case by case, and how far the offset reaches (R70, R130 to R138). -/

namespace Sys2Proof.Machine

/-! ## The branch sequence (R130) -/

/-- Every branch runs the branch sequence with the condition of its mnemonic (R131 to R138). -/
theorem exec_branch {i : Instr} (h : i.accessClass = .branch) (s : State) :
    exec i s = .next (s.runBranch (taken i.mnemonic)) := by
  cases i <;> cases h <;> rfl

section Sequence

variable (s : State) {cond : Flags → Bool}

/-- Where the branch whose offset stands at PC goes (R70). -/
def State.branchTarget : Word := s.cpu.pc + 1#16 + sext16 s.fetch.1

/-- A branch as one equation: the offset is fetched; where the condition holds, the dummy reads, then PC. -/
theorem State.runBranch_eq : s.runBranch cond =
    if cond s.cpu.p then
      let next := s.cpu.pc + 1#16
      let read := s.fetch.2.dummyRead next
      (if hiByte s.branchTarget = hiByte next then read
        else read.dummyRead (joinBytes (hiByte next) (loByte s.branchTarget))).setPc s.branchTarget
    else s.fetch.2 := by
  unfold State.runBranch
  simp only [State.fetch_cpu]
  rfl

theorem State.runBranch_not_taken (h : cond s.cpu.p = false) :
    s.runBranch cond = { s.fetch.2 with cpu := { s.cpu with pc := s.cpu.pc + 1#16 } } := by
  rw [State.runBranch_eq, if_neg (by simp [h]), ← State.fetch_cpu]

theorem State.runBranch_in_page (h : cond s.cpu.p = true) (page : hiByte s.branchTarget = hiByte (s.cpu.pc + 1#16)) :
    s.runBranch cond =
      { s.fetch.2.dummyRead (s.cpu.pc + 1#16) with cpu := { s.cpu with pc := s.branchTarget } } := by
  rw [State.runBranch_eq, if_pos h]
  simp only [page, if_true, State.setPc, State.dummyRead_cpu, State.fetch_cpu]

theorem State.runBranch_across_page (h : cond s.cpu.p = true)
    (page : hiByte s.branchTarget ≠ hiByte (s.cpu.pc + 1#16)) :
    s.runBranch cond =
      { (s.fetch.2.dummyRead (s.cpu.pc + 1#16)).dummyRead
          (joinBytes (hiByte (s.cpu.pc + 1#16)) (loByte s.branchTarget)) with
        cpu := { s.cpu with pc := s.branchTarget } } := by
  rw [State.runBranch_eq, if_pos h]
  simp only [page, if_false, State.setPc, State.dummyRead_cpu, State.fetch_cpu]

end Sequence

/-! ## The reach of the offset (R70) -/

theorem sext16_eq_ofInt (b : Byte) : sext16 b = BitVec.ofInt 16 b.toInt := rfl

/-- The target counted from the branch opcode, which stands just before PC. -/
theorem State.branchTarget_eq (s : State) :
    s.branchTarget = s.cpu.pc - 1#16 + BitVec.ofInt 16 (s.fetch.1.toInt + 2) := by
  rw [State.branchTarget, sext16_eq_ofInt, BitVec.ofInt_add]
  generalize BitVec.ofInt 16 s.fetch.1.toInt = off
  bv_omega

/-- Settles O39: the sequence case by case; the offset is a signed byte. -/
theorem branchResults : Obligations.BranchResults := by
  intro i s branch
  rw [exec_branch branch]
  have low := s.fetch.1.le_toInt
  have high := s.fetch.1.toInt_lt
  exact ⟨fun h => congrArg _ (s.runBranch_not_taken h), fun h page => congrArg _ (s.runBranch_in_page h page),
    fun h page => congrArg _ (s.runBranch_across_page h page), s.branchTarget_eq, by omega, by omega⟩

end Sys2Proof.Machine
end

section
/-! SUPPORT. Memory frames over all instructions: what stores nothing changes no byte, and a store changes only what
stands at its address (R53, R79, R87 to R89, R173, R195, R201). -/

namespace Sys2Proof.Machine

open Sys2Proof.Claims

/-! ## What reads leave unchanged (R79, R87) -/

theorem SameStore.sameMemory {s t : State} (h : SameStore s t) : sameMemory s t := by
  have peek := h.peek
  obtain ⟨-, -, -, nt, pal, oam⟩ := h
  exact ⟨peek, fun n => by rw [nt], fun n => by rw [pal], fun n => by rw [oam]⟩

/-- Settles O49: what is neither a store nor a push is reads and register changes (`ReadClosed.exec`). -/
theorem nonStoringLeaveMemory : Obligations.NonStoringLeaveMemory :=
  fun _ _ _ notWrite notRmw notJsr notBrk notPha notPhp he =>
    (sameStore_reads.exec he notWrite notRmw ⟨notJsr, notBrk, notPha, notPhp⟩).sameMemory

/-! ## What a store leaves unchanged (R53, R88, R89, R173, R201) -/

/-- From `s` to `t` no byte of memory changed but what a write at `a` reaches: the cell of `a`, and the PPU memory
behind the port register at `a`. -/
structure TouchesOnly (a : Word) (s t : State) : Prop where
  params : t.params = s.params
  cpu    : ∀ b, ¬ sameCell s.params.bus a b → t.peek b = s.peek b
  video  : ¬(s.params.bus = .nes ∧ 0x2000 ≤ a.toNat ∧ a.toNat < 0x4000 ∧ a.toNat % 8 = 7) →
    t.ppu.nt = s.ppu.nt ∧ t.ppu.pal = s.ppu.pal
  oam    : ¬(s.params.bus = .nes ∧ ((0x2000 ≤ a.toNat ∧ a.toNat < 0x4000 ∧ a.toNat % 8 = 4) ∨ a = 0x4014#16)) →
    t.ppu.oam = s.ppu.oam

namespace TouchesOnly

variable {a : Word} {s t u : State}

theorem of_sameStore (h : SameStore s t) : TouchesOnly a s t := by
  have peek := h.peek
  obtain ⟨params, -, -, nt, pal, oam⟩ := h
  exact ⟨params, fun b _ => peek b, fun _ => ⟨nt, pal⟩, fun _ => oam⟩

theorem trans (h : TouchesOnly a s t) (k : TouchesOnly a t u) : TouchesOnly a s u := by
  obtain ⟨params, cpu, video, oam⟩ := h
  obtain ⟨params', cpu', video', oam'⟩ := k
  rw [params] at cpu' video' oam'
  exact ⟨params'.trans params, fun b hb => (cpu' b hb).trans (cpu b hb),
    fun hp => ⟨(video' hp).1.trans (video hp).1, (video' hp).2.trans (video hp).2⟩,
    fun hp => (oam' hp).trans (oam hp)⟩

end TouchesOnly

/-- Nametable and palette change only through the DATA port (R200, R201). -/
theorem Ppu.writeRegister_video (p : Ppu) (k : Cart) {r : Nat} (d : Byte) (h : r ≠ 7) :
    (p.writeRegister k r d).nt = p.nt ∧ (p.writeRegister k r d).pal = p.pal := by
  unfold Ppu.writeRegister
  split
  case h_5 => unfold Ppu.scrollWrite; split <;> exact ⟨rfl, rfl⟩
  case h_6 => unfold Ppu.addrWrite; split <;> exact ⟨rfl, rfl⟩
  case h_7 => exact absurd rfl h
  all_goals exact ⟨rfl, rfl⟩

/-- OAM changes only through its own port (R200). -/
theorem Ppu.writeRegister_oam (p : Ppu) (k : Cart) {r : Nat} (d : Byte) (h : r ≠ 4) :
    (p.writeRegister k r d).oam = p.oam := by
  unfold Ppu.writeRegister
  split
  case h_4 => exact absurd rfl h
  case h_5 => unfold Ppu.scrollWrite; split <;> rfl
  case h_6 => unfold Ppu.addrWrite; split <;> rfl
  case h_7 => unfold Ppu.dataWrite Ppu.write; (repeat' split) <;> rfl
  all_goals rfl

/-- A bus write reaches the PPU only at its register ports (R53, R56). -/
theorem State.busWrite_ppu (s : State) (a : Word) (v : Byte) : (s.busWrite a v).2.ppu =
    if s.params.bus = .nes ∧ 0x2000 ≤ a.toNat ∧ a.toNat < 0x4000 then s.ppu.writeRegister s.cart (a.toNat % 8) v
    else s.ppu := by
  cases hb : s.params.bus with
  | flat => simp [State.busWrite_flat s a v hb]
  | nes =>
    rw [State.busWrite_nes a v hb]
    by_cases port : 0x2000 ≤ a.toNat ∧ a.toNat < 0x4000
    · obtain ⟨lo, hi⟩ := port
      rw [s.nesWrite_ppu v lo hi, if_pos ⟨rfl, lo, hi⟩]
    · rw [if_neg (fun h => port h.2)]
      unfold State.nesWrite
      dsimp only
      split
      · rfl
      · split
        · next hi => exact absurd ⟨by omega, hi⟩ port
        · (repeat' split) <;> rfl

theorem State.writeCycle_video {s : State} {a : Word} (v : Byte)
    (h : ¬(s.params.bus = .nes ∧ 0x2000 ≤ a.toNat ∧ a.toNat < 0x4000 ∧ a.toNat % 8 = 7)) :
    (s.writeCycle a v).2.ppu.nt = s.ppu.nt ∧ (s.writeCycle a v).2.ppu.pal = s.ppu.pal := by
  obtain ⟨nt, pal, -⟩ := (s.busWrite a v).2.endCycle_port .write a v (s.busWrite a v).1
  rw [State.writeCycle_snd, nt, pal, State.busWrite_ppu]
  split
  · next port =>
    obtain ⟨nes, lo, hi⟩ := port
    exact s.ppu.writeRegister_video _ v (fun r => h ⟨nes, lo, hi, r⟩)
  · exact ⟨rfl, rfl⟩

theorem State.writeCycle_oam {s : State} {a : Word} (v : Byte)
    (h : ¬(s.params.bus = .nes ∧ 0x2000 ≤ a.toNat ∧ a.toNat < 0x4000 ∧ a.toNat % 8 = 4)) :
    (s.writeCycle a v).2.ppu.oam = s.ppu.oam := by
  obtain ⟨-, -, oam, -⟩ := (s.busWrite a v).2.endCycle_port .write a v (s.busWrite a v).1
  rw [State.writeCycle_snd, oam, State.busWrite_ppu]
  split
  · next port =>
    obtain ⟨nes, lo, hi⟩ := port
    exact s.ppu.writeRegister_oam _ v (fun r => h ⟨nes, lo, hi, r⟩)
  · rfl

theorem State.dmaCopy_video (page : Byte) (n : Nat) (i : Byte) (s : State) :
    (State.dmaCopy page n i s).ppu.nt = s.ppu.nt ∧ (State.dmaCopy page n i s).ppu.pal = s.ppu.pal := by
  induction n generalizing i s with
  | zero => exact ⟨rfl, rfl⟩
  | succ n ih =>
    obtain ⟨-, -, -, nt, pal, -⟩ := sameStore_reads.read s (joinBytes page i)
    obtain ⟨nt', pal'⟩ := State.writeCycle_video (s := (s.memRead (joinBytes page i)).2) (a := 0x2004#16)
      (s.memRead (joinBytes page i)).1 (by simp)
    rw [State.dmaCopy, (ih ..).1, (ih ..).2, State.dmaPair_eq, nt', pal', nt, pal]
    exact ⟨rfl, rfl⟩

/-- DMA writes to the OAM port alone (R195). -/
theorem State.runDma_video (s : State) (page : Byte) :
    (s.runDma page).ppu.nt = s.ppu.nt ∧ (s.runDma page).ppu.pal = s.ppu.pal := by
  have start : s.dmaStart.ppu.nt = s.ppu.nt ∧ s.dmaStart.ppu.pal = s.ppu.pal := by
    unfold State.dmaStart
    split
    · obtain ⟨nt, pal, -⟩ := s.endCycle_port .idle 0#16 0#8 none
      exact ⟨nt, pal⟩
    · exact ⟨rfl, rfl⟩
  obtain ⟨nt, pal⟩ := State.dmaCopy_video page 256 0#8 s.dmaStart
  rw [State.runDma_eq, nt, pal]
  exact start

/-- A write, with the DMA it may start, touches nothing but what stands at its address (R53, R195). -/
theorem TouchesOnly.memWrite {s : State} (wf : s.wf = true) (a : Word) (v : Byte) :
    TouchesOnly a s (s.memWrite a v) where
  params := s.memWrite_params a v
  cpu := fun _ other => State.memWrite_peek_other v wf other
  video := fun port => by
    by_cases dma : s.params.bus = .nes ∧ a = 0x4014#16
    · obtain ⟨nes, rfl⟩ := dma
      obtain ⟨nt, pal⟩ := State.runDma_video (s.writeCycle 0x4014#16 v).2 v
      rw [s.memWrite_dma v nes, nt, pal]
      exact State.writeCycle_video v port
    · rw [s.memWrite_single a v dma]
      exact State.writeCycle_video v port
  oam := fun port => by
    rw [s.memWrite_single a v (fun dma => port ⟨dma.1, .inr dma.2⟩)]
    exact State.writeCycle_oam v (fun h => port ⟨h.1, .inl h.2⟩)

/-- The operand address of a class `W` or `M` instruction is the resolver's, in its own class. -/
theorem target_eq {i : Instr} {m : MemMode} (hm : memModeOf i.mode = some m) (s : State) :
    target i s = s.resolve m (if i.accessClass = .rmw then .rmw else .write) := by
  rw [target, hm]

/-- The value of a high-byte-AND store does not depend on PC. -/
theorem highAndRegister_pc (k : Mnemonic) (c : Cpu) (pc : Word) :
    highAndRegister k { c with pc := pc } = highAndRegister k c := by
  cases k <;> rfl

section Stores

variable {s : State} (wf : s.wf = true) (m : MemMode)
include wf

theorem TouchesOnly.runWrite (val : State → Byte) :
    TouchesOnly (s.resolve m .write).1.ea s (s.runWrite m val) :=
  .trans (.of_sameStore (sameStore_reads.resolve m _ (sameStore_reads.refl s)))
    (.memWrite (wf_closed.resolve m _ (fun h => h) wf) _ _)

theorem TouchesOnly.runHighAnd {pre : State → State} (reg : State → Byte) (hpre : RegOnly pre) :
    TouchesOnly (highAndAddr (reg (pre (s.resolve m .write).2)) (s.resolve m .write).1) s (s.runHighAnd m pre reg) :=
  .trans (.of_sameStore (sameStore_reads.regOnly hpre (sameStore_reads.resolve m _ (sameStore_reads.refl s))))
    (.memWrite (wf_closed.regOnly hpre (wf_closed.resolve m _ (fun h => h)) wf) _ _)

theorem TouchesOnly.runRmw {op : Byte → State → Byte × State} (hop : ∀ v, RegOnly (fun s => (op v s).2)) :
    TouchesOnly (s.resolve m .rmw).1.ea s (s.runRmw m op) := by
  have read : SameStore s (s.rmwRead m).2 :=
    sameStore_reads.memRead _ (sameStore_reads.resolve m _ (sameStore_reads.refl s))
  have readWf : (s.rmwRead m).2.wf = true := wf_closed.memRead _ (wf_closed.resolve m _ (fun h => h)) wf
  have oldWf : (s.rmwOld m).wf = true := State.memWrite_wf readWf _ _
  have old : TouchesOnly (s.resolve m .rmw).1.ea s (s.rmwOld m) := .trans (.of_sameStore read) (.memWrite readWf _ _)
  have registers := hop (s.rmwRead m).1
  exact (old.trans (.of_sameStore (sameStore_reads.regOnly registers (sameStore_reads.refl _)))).trans
    (.memWrite (wf_closed.regOnly registers (fun h => h) oldWf) _ _)

end Stores

/-- Settles O50: a store or a read-modify-write is reads and register changes around writes at its one address. -/
theorem storesTouchOnlyTarget : Obligations.StoresTouchOnlyTarget := by
  intro i s t a wf store he
  suffices h : TouchesOnly a s t from ⟨h.cpu, h.video, h.oam⟩
  cases runs_of_exec he with
  | write cls hm plain =>
    simp only [cls, target_eq hm, plain, reduceCtorEq, false_and, true_and, false_or, if_false] at store
    exact store ▸ .runWrite wf _ _
  | @highAnd _ _ _ m _ cls hm hpre reg =>
    have hreg := reg (s.resolve m .write).2
    rw [State.resolve_cpu, highAndRegister_pc] at hreg
    simp only [cls, target_eq hm, hreg, reduceCtorEq, false_and, true_and, false_or, if_false] at store
    exact store ▸ .runHighAnd wf _ _ hpre
  | rmw cls hm hop =>
    simp only [cls, target_eq hm, reduceCtorEq, false_and, true_and, or_false, if_true] at store
    exact store ▸ .runRmw wf _ hop
  | implied cls | imm cls | read cls | branch cls => simp [cls] at store
  | _ => simp [Instr.accessClass] at store

end Sys2Proof.Machine
end

section
/-! SUPPORT. The bus log cycle by cycle: the operand bytes, what the resolver answers and reads, and the cycles of every
instruction (R69, R78 to R90, R130, R139 to R147). -/

namespace Sys2Proof.Machine

open Sys2Proof.Claims

/-! ## The log after each operation (R43) -/

section Log

variable (s : State) (a : Word) (v : Byte)

@[simp] theorem logOf_memRead : logOf (s.memRead a).2 = (.read, a) :: logOf s := by
  simp [logOf, State.memRead_snd, State.endCycle_busLog]

@[simp] theorem logOf_dummyRead : logOf (s.dummyRead a) = (.read, a) :: logOf s := logOf_memRead s a

@[simp] theorem logOf_setPc (pc : Word) : logOf (s.setPc pc) = logOf s := rfl
@[simp] theorem logOf_setP (p : Flags) : logOf (s.setP p) = logOf s := rfl
@[simp] theorem logOf_setS : logOf (s.setS v) = logOf s := rfl
@[simp] theorem logOf_loadA : logOf (s.loadA v) = logOf s := rfl

theorem logOf_regOnly {f : State → State} (hf : RegOnly f) : logOf (f s) = logOf s := by
  rw [hf s]
  rfl

theorem params_regOnly {f : State → State} (hf : RegOnly f) : (f s).params = s.params := by
  rw [hf s]

@[simp] theorem logOf_fetch : logOf s.fetch.2 = (.read, s.cpu.pc) :: logOf s := by simp [State.fetch_eq]

@[simp] theorem logOf_pull : logOf s.pull.2 = (.read, joinBytes 0x01#8 (s.cpu.s + 1#8)) :: logOf s := by
  simp [State.pull_eq]

/-- A write that starts no DMA is one cycle (R44). -/
theorem logOf_memWrite (h : ¬(s.params.bus = .nes ∧ a = 0x4014#16)) :
    logOf (s.memWrite a v) = (.write, a) :: logOf s := by
  rw [s.memWrite_single a v h]
  simp [logOf, State.writeCycle_snd, State.endCycle_busLog]

/-- The stack page does not hold the DMA trigger. -/
@[simp] theorem logOf_push : logOf (s.push v) = (.write, joinBytes 0x01#8 s.cpu.s) :: logOf s := by
  have low := joinBytes_one_lt s.cpu.s
  have noDma : ¬(s.params.bus = .nes ∧ s.stackAddr = 0x4014#16) := fun h => by
    have trigger : (joinBytes 0x01#8 s.cpu.s).toNat = 0x4014 := congrArg BitVec.toNat h.2
    omega
  rw [State.push_eq, logOf_setS, logOf_memWrite s _ v noDma]
  rfl

@[simp] theorem logOf_fetchPair :
    logOf s.fetchPair.2.2 = (.read, s.cpu.pc + 1#16) :: (.read, s.cpu.pc) :: logOf s := by
  have h : s.fetchPair.2.2 = s.fetch.2.fetch.2 := rfl
  simp [h]

@[simp] theorem logOf_zpPointer (q : Byte) :
    logOf (s.zpPointer q).2.2 = (.read, zext16 (q + 1#8)) :: (.read, zext16 q) :: logOf s := by
  have h : (s.zpPointer q).2.2 = ((s.memRead (zext16 q)).2.memRead (zext16 (q + 1#8))).2 := rfl
  simp [h]

/-- The read of the indexing step at the un-fixed address, in the read class only on a page cross (R84). -/
@[simp] theorem logOf_indexed (cls : MemClass) (hi lo idx : Byte) : logOf (s.indexed cls hi lo idx).2 =
    (if cls = .read ∧ lo.toNat + idx.toNat < 256 then [] else [(.read, joinBytes hi (lo + idx))]).reverse ++
      logOf s := by
  simp only [State.indexed, pageCrossed, decide_eq_false_iff_not, Nat.not_le]
  split
  · rfl
  · exact logOf_dummyRead s _

end Log

/-! ## The operand bytes and the pointers (R67, R83, R85, R86) -/

/-- The addressing mode of a resolver mode (R69). -/
def MemMode.mode : MemMode → Mode
  | .zp => .zp
  | .zpx => .zpx
  | .zpy => .zpy
  | .abs => .abs
  | .abx => .abx
  | .aby => .aby
  | .izx => .izx
  | .izy => .izy

theorem mode_of_memModeOf {k : Mode} {m : MemMode} (h : memModeOf k = some m) : k = m.mode := by
  cases k <;> cases h <;> rfl

theorem MemMode.bytes_pos (m : MemMode) : 1 ≤ m.bytes := by
  cases m <;> decide

/-- Two operand bytes that are memory are what is fetched. -/
theorem State.fetchPair_of_peek {s : State} {b1 b2 : Byte} (first : s.peek s.cpu.pc = some b1)
    (second : s.peek (s.cpu.pc + 1#16) = some b2) :
    s.fetchPair.1 = b1 ∧ s.fetchPair.2.1 = b2 :=
  ⟨State.fetch_of_peek first, State.fetch_of_peek (s := s.fetch.2) (by simpa using second)⟩

@[simp] theorem zpByte_fetch (s : State) (q : Byte) : zpByte s.fetch.2 q = zpByte s q := by
  rw [zpByte, State.fetch_ram, zpByte]

@[simp] theorem zpByte_dummyRead (s : State) (a : Word) (q : Byte) : zpByte (s.dummyRead a) q = zpByte s q := by
  rw [zpByte, State.dummyRead_ram, zpByte]

/-- The zero page is RAM, so a pointer is read from it on both buses. -/
theorem State.zpPointer_bytes (s : State) (q : Byte) :
    (s.zpPointer q).1 = zpByte s q ∧ (s.zpPointer q).2.1 = zpByte s (q + 1#8) := by
  have low : (s.memRead (zext16 q)).1 = zpByte s q := by
    rw [s.memRead_low (zext16_lt q), zext16_toNat]
    rfl
  have high : ((s.memRead (zext16 q)).2.memRead (zext16 (q + 1#8))).1 = zpByte s (q + 1#8) := by
    rw [State.memRead_low _ (zext16_lt _), zext16_toNat, State.memRead_ram]
    rfl
  exact ⟨low, high⟩

/-! ## The resolver (R78, R81 to R86) -/

/-! Each mode as an equation, in the registers of before: no fetch or read changes an index register. -/

section Modes

variable (s : State) (cls : MemClass)

theorem resolve_zp : s.resolve .zp cls = (.plain (zext16 s.fetch.1), s.fetch.2) := rfl

theorem resolve_zpx : s.resolve .zpx cls =
    (.plain (zext16 (s.fetch.1 + s.cpu.x)), s.fetch.2.dummyRead (zext16 s.fetch.1)) := rfl

theorem resolve_zpy : s.resolve .zpy cls =
    (.plain (zext16 (s.fetch.1 + s.cpu.y)), s.fetch.2.dummyRead (zext16 s.fetch.1)) := rfl

theorem resolve_abs : s.resolve .abs cls = (.plain (joinBytes s.fetchPair.2.1 s.fetchPair.1), s.fetchPair.2.2) := rfl

theorem resolve_abx : s.resolve .abx cls =
    s.fetchPair.2.2.indexed cls s.fetchPair.2.1 s.fetchPair.1 s.cpu.x := rfl

theorem resolve_aby : s.resolve .aby cls =
    s.fetchPair.2.2.indexed cls s.fetchPair.2.1 s.fetchPair.1 s.cpu.y := rfl

theorem resolve_izx : s.resolve .izx cls =
    let pointer := (s.fetch.2.dummyRead (zext16 s.fetch.1)).zpPointer (s.fetch.1 + s.cpu.x)
    (.plain (joinBytes pointer.2.1 pointer.1), pointer.2.2) := by
  have index : s.fetch.2.cpu.x = s.cpu.x := by rw [State.fetch_cpu]
  rw [← index]
  rfl

theorem resolve_izy : s.resolve .izy cls =
    let pointer := s.fetch.2.zpPointer s.fetch.1
    pointer.2.2.indexed cls pointer.2.1 pointer.1 s.cpu.y := by
  have index : (s.fetch.2.zpPointer s.fetch.1).2.2.cpu.y = s.cpu.y := by rw [State.zpPointer_cpu, State.fetch_cpu]
  rw [← index]
  rfl

end Modes

/-- What the resolver answers in mode `k`, from the operand bytes: the base high byte of a mode without an index across
pages is that of the address itself. -/
def resolution (s : State) (k : Mode) (b1 b2 : Byte) : Resolved where
  ea := address s k b1 b2
  baseHi := match indexing s k b1 b2 with
    | some (hi, _, _) => hi
    | none => hiByte (address s k b1 b2)
  crossed := crosses (indexing s k b1 b2)

section Resolver

variable {i : Instr} {m : MemMode} {s : State} {b1 b2 : Byte}

/-- The operand bytes of an instruction with a memory address, as its mode fetches them. -/
theorem operandBytes_fetched (hm : memModeOf i.mode = some m) (bytes : operandBytes i s b1 b2) :
    s.fetch.1 = b1 ∧ (m.bytes = 2 → s.fetchPair.1 = b1 ∧ s.fetchPair.2.1 = b2) := by
  obtain ⟨first, second⟩ := bytes
  rw [memModeOf_bytes hm] at first second
  have holds := first m.bytes_pos
  exact ⟨State.fetch_of_peek holds, fun two => State.fetchPair_of_peek holds (second two.ge)⟩

/-- The resolver's answer, mode by mode (R81 to R86). -/
theorem resolve_fst (hm : memModeOf i.mode = some m) (bytes : operandBytes i s b1 b2) (cls : MemClass) :
    (s.resolve m cls).1 = resolution s i.mode b1 b2 := by
  obtain ⟨one, two⟩ := operandBytes_fetched hm bytes
  rw [mode_of_memModeOf hm]
  cases m
  case zp => rw [resolve_zp, one]; rfl
  case zpx => rw [resolve_zpx, one]; rfl
  case zpy => rw [resolve_zpy, one]; rfl
  case abs => simp only [resolve_abs, two rfl]; rfl
  case abx => simp only [resolve_abx, two rfl]; rfl
  case aby => simp only [resolve_aby, two rfl]; rfl
  case izx =>
    simp only [resolve_izx, one, State.zpPointer_bytes, zpByte_dummyRead, zpByte_fetch]
    rfl
  case izy =>
    simp only [resolve_izy, one, State.zpPointer_bytes, zpByte_fetch]
    rfl

theorem fetches_of_one (h : i.operandCount = 1) : fetches i s = [(.read, s.cpu.pc)] := by
  simp [fetches, h]

theorem fetches_of_two (h : i.operandCount = 2) :
    fetches i s = [(.read, s.cpu.pc), (.read, s.cpu.pc + 1#16)] := by
  simp [fetches, h, List.range_succ]

/-- The resolver's bus cycles, mode by mode (R81 to R86). -/
theorem logOf_resolve (hm : memModeOf i.mode = some m) (bytes : operandBytes i s b1 b2) (cls : MemClass) :
    logOf (s.resolve m cls).2 =
      (fetches i s ++ resolverReads (decide (cls = .read)) i s b1 b2).reverse ++ logOf s := by
  obtain ⟨one, two⟩ := operandBytes_fetched hm bytes
  have count := memModeOf_bytes hm
  have mode := mode_of_memModeOf hm
  cases m
  case zp => simp [resolve_zp, fetches_of_one count, resolverReads, mode, MemMode.mode, indexing]
  case zpx => simp [resolve_zpx, one, fetches_of_one count, resolverReads, mode, MemMode.mode, indexing]
  case zpy => simp [resolve_zpy, one, fetches_of_one count, resolverReads, mode, MemMode.mode, indexing]
  case abs => simp [resolve_abs, fetches_of_two count, resolverReads, mode, MemMode.mode, indexing]
  case abx => simp [resolve_abx, two rfl, fetches_of_two count, resolverReads, mode, MemMode.mode, indexing]
  case aby => simp [resolve_aby, two rfl, fetches_of_two count, resolverReads, mode, MemMode.mode, indexing]
  case izx => simp [resolve_izx, one, fetches_of_one count, resolverReads, mode, MemMode.mode, indexing]
  case izy =>
    simp [resolve_izy, one, fetches_of_one count, resolverReads, mode, MemMode.mode, indexing, State.zpPointer_bytes]

end Resolver

/-- Settles O46: what the resolver answers and reads mode by mode, all of it reads and a move of PC. -/
theorem operandAddress : Obligations.OperandAddress := by
  intro i m cls s b1 b2 hm bytes
  have answer := resolve_fst hm bytes cls
  refine ⟨by rw [answer]; rfl, by rw [answer]; rfl, fun hi lo idx base => ?_, logOf_resolve hm bytes cls, ?_,
    (sameStore_reads.resolve m cls (sameStore_reads.refl s)).sameMemory⟩
  · rw [answer, resolution, base]
  · rw [State.resolve_cpu, past, memModeOf_bytes hm]

/-! ## The bus cycles of an instruction (R90) -/

section Cycles

variable {i : Instr} {m : MemMode} {s : State} {b1 b2 : Byte}

/-- Class `implied` is one read at PC (R79). -/
theorem logOf_runImplied (cls : i.accessClass = .implied) {op : State → State} (hop : RegOnly op) :
    logOf (s.runImplied op) = (accesses i s b1 b2).reverse ++ logOf s := by
  rw [State.runImplied, logOf_regOnly _ hop, logOf_dummyRead]
  simp [accesses, cls]

/-- Immediate mode fetches its operand and nothing else (R80). -/
theorem logOf_runImm (cls : i.accessClass = .read) (imm : i.mode = .imm) {op : Byte → State → State}
    (hop : ∀ v, RegOnly (op v)) : logOf (s.runImm op) = (accesses i s b1 b2).reverse ++ logOf s := by
  have count : i.operandCount = 1 := by rw [Instr.operandCount, imm]; rfl
  rw [State.runImm_eq, logOf_regOnly _ (hop _), logOf_fetch]
  simp [accesses, cls, imm, fetches_of_one count]

/-- Class `R` on memory ends with the read of the operand (R87). -/
theorem logOf_runRead (cls : i.accessClass = .read) (hm : memModeOf i.mode = some m)
    (bytes : operandBytes i s b1 b2) {op : Byte → State → State} (hop : ∀ v, RegOnly (op v)) :
    logOf (s.runRead m op) = (accesses i s b1 b2).reverse ++ logOf s := by
  have notImm : i.mode ≠ .imm := fun h => by simp [h, memModeOf] at hm
  rw [State.runRead_eq, logOf_regOnly _ (hop _), logOf_memRead, logOf_resolve hm bytes, resolve_fst hm bytes]
  simp [accesses, cls, notImm, resolution]

/-- Where a plain store goes (R88). -/
theorem storeAddress_plain (plain : ∀ c, highAndRegister i.mnemonic c = none) :
    storeAddress i s b1 b2 = (resolution s i.mode b1 b2).ea := by
  rw [storeAddress, plain]
  rfl

/-- Where a high-byte-AND store goes (R173). -/
theorem storeAddress_highAnd {reg : Byte} (stored : highAndRegister i.mnemonic s.cpu = some reg) :
    storeAddress i s b1 b2 = highAndAddr reg (resolution s i.mode b1 b2) := by
  rw [storeAddress, stored, highAndAddr, resolution]
  cases indexing s i.mode b1 b2 with
  | none => rfl
  | some base => simp [crosses, highAndValue]

/-- No read-modify-write is a high-byte-AND store (R173). -/
theorem highAndRegister_of_rmw (cls : i.accessClass = .rmw) (c : Cpu) : highAndRegister i.mnemonic c = none := by
  cases i <;> cases cls <;> rfl

/-- An instruction that starts no DMA does not store at the trigger (R53). -/
theorem not_trigger (noDma : startsNoDma i s b1 b2) (stores : i.accessClass = .write ∨ i.accessClass = .rmw) {u : State}
    (params : u.params = s.params) : ¬(u.params.bus = .nes ∧ storeAddress i s b1 b2 = 0x4014#16) :=
  fun ⟨nes, trigger⟩ => noDma (params ▸ nes) stores trigger

/-- Class `W` ends with one write, from a state `u` that differs from the resolver's in registers (R88). -/
theorem logOf_store (cls : i.accessClass = .write) (hm : memModeOf i.mode = some m) (bytes : operandBytes i s b1 b2)
    (noDma : startsNoDma i s b1 b2) {u : State} (params : u.params = s.params)
    (log : logOf u = logOf (s.resolve m .write).2) (v : Byte) :
    logOf (u.memWrite (storeAddress i s b1 b2) v) = (accesses i s b1 b2).reverse ++ logOf s := by
  rw [logOf_memWrite _ _ _ (not_trigger noDma (.inl cls) params), log, logOf_resolve hm bytes]
  simp [accesses, cls]

theorem logOf_runWrite (cls : i.accessClass = .write) (hm : memModeOf i.mode = some m)
    (plain : ∀ c, highAndRegister i.mnemonic c = none) (bytes : operandBytes i s b1 b2)
    (noDma : startsNoDma i s b1 b2) (val : State → Byte) :
    logOf (s.runWrite m val) = (accesses i s b1 b2).reverse ++ logOf s := by
  rw [State.runWrite_eq, resolve_fst hm bytes, ← storeAddress_plain plain]
  exact logOf_store cls hm bytes noDma (State.resolve_params s m _) rfl _

theorem logOf_runHighAnd (cls : i.accessClass = .write) (hm : memModeOf i.mode = some m) {pre : State → State}
    {reg : State → Byte} (hpre : RegOnly pre) (hreg : ∀ u, highAndRegister i.mnemonic u.cpu = some (reg (pre u)))
    (bytes : operandBytes i s b1 b2) (noDma : startsNoDma i s b1 b2) :
    logOf (s.runHighAnd m pre reg) = (accesses i s b1 b2).reverse ++ logOf s := by
  have stored := hreg (s.resolve m .write).2
  rw [State.resolve_cpu, highAndRegister_pc] at stored
  have params : (pre (s.resolve m .write).2).params = s.params :=
    (params_regOnly _ hpre).trans (State.resolve_params s m _)
  rw [State.runHighAnd_eq, resolve_fst hm bytes, ← storeAddress_highAnd stored]
  exact logOf_store cls hm bytes noDma params (logOf_regOnly _ hpre) _

/-- Class `M` reads the operand and writes twice where it was read (R89). -/
theorem logOf_runRmw (cls : i.accessClass = .rmw) (hm : memModeOf i.mode = some m)
    (bytes : operandBytes i s b1 b2) (noDma : startsNoDma i s b1 b2)
    {op : Byte → State → Byte × State} (hop : ∀ v, RegOnly (fun s => (op v s).2)) :
    logOf (s.runRmw m op) = (accesses i s b1 b2).reverse ++ logOf s := by
  have ea : (s.resolve m .rmw).1.ea = storeAddress i s b1 b2 := by
    rw [resolve_fst hm bytes, storeAddress_plain (highAndRegister_of_rmw cls)]
  have once : ∀ (u : State) (v : Byte), u.params = s.params →
      logOf (u.memWrite (storeAddress i s b1 b2) v) = (.write, storeAddress i s b1 b2) :: logOf u :=
    fun u v params => logOf_memWrite u _ v (not_trigger noDma (.inr cls) params)
  have operand : logOf (s.rmwRead m).2 = (.read, storeAddress i s b1 b2) :: logOf (s.resolve m .rmw).2 := by
    rw [State.rmwRead, logOf_memRead, ea]
  have old : logOf (s.rmwOld m) = (.write, storeAddress i s b1 b2) :: logOf (s.rmwRead m).2 := by
    rw [State.rmwOld, ea]
    exact once _ _ (by simp [State.rmwRead])
  have registers := hop (s.rmwRead m).1
  have params : (op (s.rmwRead m).1 (s.rmwOld m)).2.params = s.params :=
    (params_regOnly _ registers).trans (State.rmwOld_params s m)
  rw [State.runRmw_eq, ea, once _ _ params, logOf_regOnly _ registers, old, operand, logOf_resolve hm bytes,
    storeAddress_plain (highAndRegister_of_rmw cls)]
  simp [accesses, cls, resolution]

theorem operandCount_of_branch (cls : i.accessClass = .branch) : i.operandCount = 1 := by
  cases i <;> cases cls <;> rfl

/-- A branch fetches its offset; taken it reads at the next instruction, and across a page once more (R130). -/
theorem logOf_runBranch (cls : i.accessClass = .branch) {cond : Flags → Bool} (hc : ∀ p, cond p = taken i.mnemonic p)
    (bytes : operandBytes i s b1 b2) :
    logOf (s.runBranch cond) = (accesses i s b1 b2).reverse ++ logOf s := by
  have count := operandCount_of_branch cls
  have offset : s.fetch.1 = b1 := State.fetch_of_peek (bytes.1 count.ge)
  have target : s.branchTarget = s.cpu.pc + 1#16 + sext16 b1 := by rw [State.branchTarget, offset]
  rw [State.runBranch_eq, hc, target]
  by_cases go : taken i.mnemonic s.cpu.p
  · by_cases page : hiByte (s.cpu.pc + 1#16 + sext16 b1) = hiByte (s.cpu.pc + 1#16)
    · simp [accesses, cls, go, page, fetches_of_one count]
    · simp [accesses, cls, go, page, fetches_of_one count]
  · simp [accesses, cls, go, fetches_of_one count]

/-! The jumps and the stack instructions, each its own sequence (R139 to R142, R144 to R147). -/

theorem logOf_jumpAbs : logOf s.jumpAbs = (accesses .jmpAbs s b1 b2).reverse ++ logOf s := by
  have fetched : fetches .jmpAbs s = _ := fetches_of_two rfl
  simp [State.jumpAbs, accesses, Instr.accessClass, Instr.mode, fetched]

theorem logOf_jumpInd (bytes : operandBytes .jmpInd s b1 b2) :
    logOf s.jumpInd = (accesses .jmpInd s b1 b2).reverse ++ logOf s := by
  have fetched : fetches .jmpInd s = _ := fetches_of_two rfl
  have pointer := State.fetchPair_of_peek (bytes.1 (by decide)) (bytes.2 (by decide))
  simp [State.jumpInd, pointer, accesses, Instr.accessClass, Instr.mode, fetched]

/-- The top of the stack and the three slots above it, in the counting of `slotBelow`. -/
theorem slotBelow_top : slotBelow s 0#8 = joinBytes 0x01#8 s.cpu.s ∧
    slotBelow s 0xFF#8 = joinBytes 0x01#8 (s.cpu.s + 1#8) ∧ slotBelow s 0xFE#8 = joinBytes 0x01#8 (s.cpu.s + 2#8) ∧
    slotBelow s 0xFD#8 = joinBytes 0x01#8 (s.cpu.s + 3#8) :=
  ⟨by rw [slotBelow, BitVec.sub_zero], by rw [slotBelow, BitVec.sub_eq_add_neg]; rfl,
    by rw [slotBelow, BitVec.sub_eq_add_neg]; rfl, by rw [slotBelow, BitVec.sub_eq_add_neg]; rfl⟩

theorem logOf_jumpSub : logOf s.jumpSub = (accesses .jsr s b1 b2).reverse ++ logOf s := by
  simp [State.jumpSub, State.stackAddr, accesses, Instr.accessClass, Instr.mnemonic, slotBelow]

theorem logOf_returnSub : logOf s.returnSub = (accesses .rts s b1 b2).reverse ++ logOf s := by
  simp [State.returnSub, State.stackAddr, State.pull_fst, stackByte, accesses, Instr.accessClass, Instr.mnemonic,
    slotBelow_top, BitVec.add_assoc]

theorem logOf_returnFromInterrupt : logOf s.returnFromInterrupt = (accesses .rti s b1 b2).reverse ++ logOf s := by
  simp [State.returnFromInterrupt, State.stackAddr, accesses, Instr.accessClass, Instr.mnemonic, slotBelow_top,
    BitVec.add_assoc]

theorem logOf_pushA : logOf s.pushA = (accesses .pha s b1 b2).reverse ++ logOf s := by
  simp [State.pushA, accesses, Instr.accessClass, Instr.mnemonic, slotBelow_top]

theorem logOf_pushP : logOf s.pushP = (accesses .php s b1 b2).reverse ++ logOf s := by
  simp [State.pushP, accesses, Instr.accessClass, Instr.mnemonic, slotBelow_top]

theorem logOf_pullA : logOf s.pullA = (accesses .pla s b1 b2).reverse ++ logOf s := by
  simp [State.pullA, State.pullByte, State.stackAddr, accesses, Instr.accessClass, Instr.mnemonic, slotBelow_top]

theorem logOf_pullP : logOf s.pullP = (accesses .plp s b1 b2).reverse ++ logOf s := by
  simp [State.pullP, State.pullByte, State.stackAddr, accesses, Instr.accessClass, Instr.mnemonic, slotBelow_top]

end Cycles

/-- Settles O47: every instruction completes by one of the shared sequences (`exec_runs`), each with its own cycles. -/
theorem busCycleSequence : Obligations.BusCycleSequence := by
  intro i s b1 b2 notBrk bytes noDma
  obtain ⟨t, he, runs⟩ := exec_runs i s
  refine ⟨t, he, ?_⟩
  cases runs with
  | implied cls hop => exact logOf_runImplied cls hop
  | imm cls imm hop => exact logOf_runImm cls imm hop
  | read cls hm hop => exact logOf_runRead cls hm bytes hop
  | write cls hm plain => exact logOf_runWrite cls hm plain bytes noDma _
  | highAnd cls hm hpre hreg => exact logOf_runHighAnd cls hm hpre hreg bytes noDma
  | rmw cls hm hop => exact logOf_runRmw cls hm bytes noDma hop
  | branch cls hc => exact logOf_runBranch cls hc bytes
  | jmpAbs => exact logOf_jumpAbs
  | jmpInd => exact logOf_jumpInd bytes
  | jsr => exact logOf_jumpSub
  | rts => exact logOf_returnSub
  | rti => exact logOf_returnFromInterrupt
  | brk => exact absurd rfl notBrk
  | pha => exact logOf_pushA
  | php => exact logOf_pushP
  | pla => exact logOf_pullA
  | plp => exact logOf_pullP

end Sys2Proof.Machine
end

section
/-! SUPPORT. Loads, stores and register instructions: each class's sequence in the terms of the claims, then the
instructions by mnemonic (R79, R80, R87, R88, R92 to R103, R126 to R129, R148 to R154, R163 to R165, R173 to R177). -/

namespace Sys2Proof.Machine

open Sys2Proof.Claims

variable {i : Instr} {m : MemMode}

/-! ## Class `R`: the operand, then the operation (R80, R87) -/

/-- The operand of a class `R` instruction is an immediate byte or stands in memory (R73, R80, R87). -/
theorem imm_or_memMode_of_read (cls : i.accessClass = .read) : i.mode = .imm ∨ ∃ m, memModeOf i.mode = some m := by
  cases i <;> first
    | (cases cls; done)
    | exact .inl rfl
    | exact .inr ⟨_, rfl⟩

/-- The mnemonics that stand for an operation on an operand are of class `R` in every mode (R73). -/
theorem accessClass_read_of_mnemonic (h : i.mnemonic ∈ [Mnemonic.LDA, .LDX, .LDY, .ADC, .SBC, .AND, .ORA, .EOR, .BIT,
    .CMP, .CPX, .CPY, .LAX, .LAS, .ANC, .ALR, .ARR, .ANE, .LXA, .SBX, .USBC]) : i.accessClass = .read := by
  cases i <;> first
    | rfl
    | exact absurd h (by decide)

theorem operand_imm (hm : i.mode = .imm) (s : State) : operand i s = s.fetch := by
  rw [operand, hm]
  rfl

theorem operand_mem (hm : memModeOf i.mode = some m) (s : State) :
    operand i s = (s.resolve m .read).2.memRead (s.resolve m .read).1.ea := by
  rw [operand, hm]

/-- Reading the operand moves PC past its bytes and changes no other register (R20). -/
theorem operand_cpu (cls : i.accessClass = .read) (s : State) : (operand i s).2.cpu = past i s := by
  obtain imm | ⟨m, hm⟩ := imm_or_memMode_of_read cls
  · rw [operand_imm imm, State.fetch_cpu, past, Instr.operandCount, imm]
    rfl
  · rw [operand_mem hm, State.memRead_cpu, State.resolve_cpu, past, memModeOf_bytes hm]

theorem exec_operand (cls : i.accessClass = .read) (s : State) :
    exec i s = .next (readOp i.mnemonic (operand i s).1 (operand i s).2) := by
  obtain imm | ⟨m, hm⟩ := imm_or_memMode_of_read cls
  · rw [exec_imm imm, operand_imm imm]
    rfl
  · rw [exec_read cls hm, operand_mem hm]
    rfl

/-- A class `R` instruction whose operation changes the registers by `f`. -/
theorem readsThen_of_op {f : Byte → Cpu → Cpu} (cls : i.accessClass = .read)
    (hop : ∀ v u, readOp i.mnemonic v u = { u with cpu := f v u.cpu }) (s : State) : readsThen i s f := by
  rw [readsThen, exec_operand cls, hop, operand_cpu cls]

/-! ## Class `implied`: a dummy read, then the operation (R79) -/

/-- A class `implied` instruction whose operation changes the registers by `f`. -/
theorem registersBecome_of_op {f : Cpu → Cpu} (cls : i.accessClass = .implied)
    (hop : ∀ u, impliedOp i.mnemonic u = { u with cpu := f u.cpu }) (s : State) : registersBecome i s f := by
  rw [registersBecome, exec_implied cls, State.runImplied, hop, State.dummyRead_cpu]

/-! ## Class `W`: the address, then the write (R88, R173) -/

/-- An instruction that stores has an address in memory (R73). -/
theorem exists_memMode_of_stores (stores : i.accessClass = .write ∨ i.accessClass = .rmw) :
    ∃ m, memModeOf i.mode = some m := by
  cases i <;> first
    | exact ⟨_, rfl⟩
    | exact absurd stores (by decide)

/-- The resolver of an instruction that stores moves PC past the operand bytes and changes no other register (R78). -/
theorem target_cpu (stores : i.accessClass = .write ∨ i.accessClass = .rmw) (s : State) :
    (target i s).2.cpu = past i s := by
  obtain ⟨m, hm⟩ := exists_memMode_of_stores stores
  rw [target_eq hm, State.resolve_cpu, past, memModeOf_bytes hm]

/-- The register a plain store writes, by mnemonic (R95 to R97, R163). -/
def storedRegister (k : Mnemonic) (c : Cpu) : Option Byte :=
  match k with
  | .STA => some c.a
  | .STX => some c.x
  | .STY => some c.y
  | .SAX => some (c.a &&& c.x)
  | _ => none

/-- The instructions that store a register are of class `W` in every mode (R73). -/
theorem accessClass_write_of_register {c : Cpu} {v : Byte}
    (h : storedRegister i.mnemonic c = some v ∨ highAndRegister i.mnemonic c = some v) : i.accessClass = .write := by
  cases i <;> first
    | rfl
    | (obtain h | h := h <;> cases h)

/-- The value of a plain store does not depend on PC. -/
theorem storedRegister_pc (k : Mnemonic) (c : Cpu) (pc : Word) :
    storedRegister k { c with pc := pc } = storedRegister k c := by
  cases k <;> rfl

/-- A plain store writes at the resolver's address, from the resolver's registers (R88). -/
theorem exec_stored {s : State} {v : Byte} (h : storedRegister i.mnemonic (target i s).2.cpu = some v) :
    exec i s = .next ((target i s).2.memWrite (target i s).1.ea v) := by
  cases i <;> cases h <;> rfl

/-- S takes A & X before TAS stores (R177); no other store changes a register. -/
def storingCpu (k : Mnemonic) (c : Cpu) : Cpu := if k = .TAS then { c with s := c.a &&& c.x } else c

/-- A high-byte-AND store, from the resolver's registers (R173). -/
theorem exec_highAnd {s : State} {reg : Byte} (h : highAndRegister i.mnemonic (target i s).2.cpu = some reg) :
    exec i s = .next ({ (target i s).2 with cpu := storingCpu i.mnemonic (target i s).2.cpu }.memWrite
      (highAndAddr reg (target i s).1) (highAndValue reg (target i s).1)) := by
  cases i <;> cases h <;> rfl

theorem storesAt_of_storedRegister {s : State} {v : Byte} (h : storedRegister i.mnemonic s.cpu = some v) :
    storesAt i s (target i s).1.ea v id := by
  have cpu := target_cpu (.inl (accessClass_write_of_register (.inl h))) s
  rw [storesAt, exec_stored (by rw [cpu, past, storedRegister_pc, h]), id, ← cpu]

theorem storesAt_of_highAndRegister {s : State} {reg : Byte} (h : highAndRegister i.mnemonic s.cpu = some reg) :
    storesAt i s (highAndAddr reg (target i s).1) (highAndValue reg (target i s).1) (storingCpu i.mnemonic) := by
  have cpu := target_cpu (.inl (accessClass_write_of_register (.inr h))) s
  rw [storesAt, exec_highAnd (by rw [cpu, past, highAndRegister_pc, h]), cpu]

/-! ## The instructions, by mnemonic -/

/-- Settles O27: the loads are of class `R`, and each operation writes the operand, or LAS what S leaves of it, to its
registers. -/
theorem loadResults : Obligations.LoadResults := by
  intro i s
  refine ⟨fun hk => ?_, fun hk => ?_, fun hk => ?_, fun hk => ?_, fun hk => ?_⟩
  all_goals
    exact readsThen_of_op (accessClass_read_of_mnemonic (by simp [hk])) (fun _ _ => by rw [hk]; rfl) s

/-- Settles O28: each of the seventeen operations writes its registers and nothing else. -/
theorem impliedResults : Obligations.ImpliedResults := by
  intro s
  and_intros
  all_goals exact registersBecome_of_op rfl (fun _ => rfl) s

/-- Settles O29: the plain stores by the register of their mnemonic, the high-byte-AND stores by `highAndAddr`. -/
theorem storeResults : Obligations.StoreResults := by
  intro i s
  refine ⟨fun hk => ?sta, fun hk => ?stx, fun hk => ?sty, fun hk => ?sax, fun _ h => storesAt_of_highAndRegister h⟩
  all_goals exact storesAt_of_storedRegister (by rw [hk]; rfl)

end Sys2Proof.Machine
end

section
/-! SUPPORT. The ALU functions in the terms of the claims: exact sums and differences, decimal digits, shifts and
rotates (R105 to R110). -/

namespace Sys2Proof.Machine

open Sys2Proof.Claims

/-! ## Bytes and flags as numbers (R11) -/

theorem carryNat_eq_toNat (c : Bool) : carryNat c = c.toNat := by
  cases c <;> rfl

theorem flagByte_eq_setWidth (c : Bool) : flagByte c = (BitVec.ofBool c).setWidth 8 := by
  cases c <;> rfl

/-- Bit 7 says that a byte is in the upper half, which is the negative one. -/
theorem bit7_eq_decide (v : Byte) : bit7 v = decide (128 ≤ v.toNat) := v.msb_eq_decide

theorem toInt_eq_sub_bit7 (v : Byte) : v.toInt = v.toNat - 256 * (bit7 v).toNat := by
  rw [BitVec.toInt_eq_toNat_cond, bit7_eq_decide]
  by_cases h : 128 ≤ v.toNat
  · simp [h, show ¬ 2 * v.toNat < 256 by omega]
  · simp [h, show 2 * v.toNat < 256 by omega]

theorem toNat_and_lowDigit (v : Byte) : (v &&& 0x0F#8).toNat = v.toNat % 16 :=
  Nat.and_two_pow_sub_one_eq_mod v.toNat 4

theorem toNat_and_highDigit (v : Byte) : (v &&& 0xF0#8).toNat = v.toNat / 16 * 16 := by
  revert v
  decide

theorem testBit7_eq_decide (t : Nat) : t.testBit 7 = decide (128 ≤ t % 256) := by
  rw [Nat.testBit_eq_decide_div_mod_eq]
  exact decide_eq_decide.mpr (by omega)

theorem bit7_ofNat (t : Nat) : bit7 (BitVec.ofNat 8 t) = decide (128 ≤ t % 256) := by
  rw [bit7_eq_decide, BitVec.toNat_ofNat]

/-! ## `Add` (R105, R107) -/

/-- Two bytes of one sign, a result of the other. -/
theorem sumOverflow_eq_signs (a m r : Byte) :
    sumOverflow a m r = (bit7 a == bit7 m && bit7 r != bit7 a) := by
  have bits : sumOverflow a m r = ((bit7 a ^^ bit7 r) && (bit7 m ^^ bit7 r)) := by
    simp [sumOverflow, bit7]
  rw [bits]
  cases bit7 a <;> cases bit7 m <;> cases bit7 r <;> rfl

/-- The sign rule is the exact signed sum leaving the range of a signed byte. -/
theorem sumOverflow_sumByte (a m : Byte) (c : Bool) :
    sumOverflow a m (sumByte a m c) = outOfRange (a.toInt + m.toInt + c.toNat) := by
  have carry := c.toNat_le
  rw [sumOverflow_eq_signs, toInt_eq_sub_bit7, toInt_eq_sub_bit7, sumByte, sumNat, carryNat_eq_toNat, bit7_ofNat]
  simp only [bit7_eq_decide, outOfRange]
  rw [Bool.eq_iff_iff]
  by_cases ha : 128 ≤ a.toNat <;> by_cases hm : 128 ≤ m.toNat
  all_goals
    simp [ha, hm]
    omega

/-- The binary addition of the claims is the ALU's. -/
theorem addBinary_eq (m : Byte) (c : Cpu) : Claims.addBinary m c =
    { c with a := (Machine.addBinary c.a m c.p).1, p := (Machine.addBinary c.a m c.p).2 } := by
  dsimp only [Machine.addBinary]
  rw [sumOverflow_sumByte, sumByte, sumCarry, sumNat, carryNat_eq_toNat]
  rfl

/-- The sum of `AddDec` before the high digit is corrected, in digits. -/
theorem addDecMid_eq (a m : Byte) (c : Bool) : addDecMid a m c =
    a.toNat / 16 * 16 + m.toNat / 16 * 16 +
      if 10 ≤ a.toNat % 16 + m.toNat % 16 + c.toNat then (a.toNat % 16 + m.toNat % 16 + c.toNat + 6) % 16 + 16
      else a.toNat % 16 + m.toNat % 16 + c.toNat := by
  rw [addDecMid, addDecLow, carryNat_eq_toNat]
  simp only [toNat_and_lowDigit, toNat_and_highDigit]

/-- Z of the decimal addition is that of the binary sum. -/
theorem sumByte_beq_zero (a m : Byte) (c : Bool) :
    (sumByte a m c == 0#8) = decide ((a.toNat + m.toNat + c.toNat) % 256 = 0) := by
  rw [sumByte, sumNat, carryNat_eq_toNat]
  exact decide_eq_decide.mpr (by rw [← BitVec.toNat_inj, BitVec.toNat_ofNat]; rfl)

/-- V of the decimal addition, by the signs: the operands of one, the intermediate `t` of the other. -/
theorem decimalOverflow_eq_signs (a m : Byte) (t : Nat) : bit7 (~~~(a ^^^ m) &&& (a ^^^ BitVec.ofNat 8 t)) =
    decide ((128 ≤ a.toNat ↔ 128 ≤ m.toNat) ∧ ¬(128 ≤ a.toNat ↔ 128 ≤ t % 256)) := by
  have bits : bit7 (~~~(a ^^^ m) &&& (a ^^^ BitVec.ofNat 8 t)) =
      (!(bit7 a ^^ bit7 m) && (bit7 a ^^ bit7 (BitVec.ofNat 8 t))) := by
    simp [bit7]
  rw [bits, bit7_ofNat, bit7_eq_decide, bit7_eq_decide, Bool.eq_iff_iff]
  by_cases ha : 128 ≤ a.toNat <;> by_cases hm : 128 ≤ m.toNat <;> simp [ha, hm]

/-- The decimal addition of the claims is the ALU's. -/
theorem addDecimal_eq (m : Byte) (c : Cpu) : Claims.addDecimal m c =
    { c with a := (Machine.addDecimal c.a m c.p).1, p := (Machine.addDecimal c.a m c.p).2 } := by
  dsimp only [Machine.addDecimal, Claims.addDecimal]
  rw [← addDecMid_eq, sumByte_beq_zero, decimalOverflow_eq_signs, testBit7_eq_decide]
  rfl

/-- `Add(m)` of the claims is the ALU's, in the mode of the state. -/
theorem added_eq (s : State) (m : Byte) (c : Cpu) : added s m c =
    { c with a := (aluAdd s.decimalAlu c.a m c.p).1, p := (aluAdd s.decimalAlu c.a m c.p).2 } := by
  simp only [added, aluAdd, State.decimalAlu, Bool.and_eq_true, decide_eq_true_eq]
  split
  · exact addDecimal_eq m c
  · exact addBinary_eq m c

/-- V of the binary addition, by the signs. -/
theorem addBinary_v (m : Byte) (c : Cpu) : (Claims.addBinary m c).p.v =
    (bit7 c.a == bit7 m && bit7 (Claims.addBinary m c).a != bit7 c.a) := by
  rw [addBinary_eq]
  exact sumOverflow_eq_signs c.a m _

/-! ## `Sub` (R106, R108) -/

theorem toNat_xor_ones (m : Byte) : (m ^^^ 0xFF#8).toNat = 255 - m.toNat := by
  rw [show (0xFF#8 : Byte) = BitVec.allOnes 8 from rfl, BitVec.xor_allOnes, BitVec.toNat_not]

theorem toInt_xor_ones (m : Byte) : (m ^^^ 0xFF#8).toInt = -1 - m.toInt := by
  have small := m.isLt
  rw [toInt_eq_sub_bit7, toInt_eq_sub_bit7, bit7_eq_decide, bit7_eq_decide, toNat_xor_ones]
  by_cases h : 128 ≤ m.toNat
  · simp [h, show ¬ 128 ≤ 255 - m.toNat by omega]
    omega
  · simp [h, show 128 ≤ 255 - m.toNat by omega]
    omega

section Difference

variable (a m : Byte) (c : Bool)

/-- Adding the complement is the exact difference modulo 256. -/
theorem sumByte_xor_ones : sumByte a (m ^^^ 0xFF#8) c = BitVec.ofInt 8 (a.toNat - m.toNat - (1 - c.toNat)) := by
  have small := m.isLt
  have diff : ((a.toNat + (255 - m.toNat) + c.toNat : Nat) : Int) = a.toNat - m.toNat - (1 - c.toNat) + 256 := by
    omega
  rw [sumByte, sumNat, carryNat_eq_toNat, toNat_xor_ones, ← BitVec.ofInt_natCast, diff, BitVec.ofInt_add]
  exact BitVec.add_zero _

/-- It carries out where the difference needs no borrow. -/
theorem sumCarry_xor_ones :
    sumCarry a (m ^^^ 0xFF#8) c = decide (0 ≤ (a.toNat - m.toNat - (1 - c.toNat) : Int)) := by
  have small := m.isLt
  rw [sumCarry, sumNat, carryNat_eq_toNat, toNat_xor_ones]
  exact decide_eq_decide.mpr (by omega)

theorem sumOverflow_xor_ones : sumOverflow a (m ^^^ 0xFF#8) (sumByte a (m ^^^ 0xFF#8) c) =
    outOfRange (a.toInt - m.toInt - (1 - c.toNat)) := by
  rw [sumOverflow_sumByte, toInt_xor_ones]
  congr 1
  omega

end Difference

/-- The binary difference of the claims: the ALU's flags in both modes, its A where the decimal branch is not taken. -/
theorem subBinary_eq (dec : Bool) (m : Byte) (c : Cpu) : subBinary m c =
    { c with a := sumByte c.a (m ^^^ 0xFF#8) c.p.c, p := (aluSub dec c.a m c.p).2 } := by
  dsimp only [aluSub]
  rw [sumOverflow_xor_ones, sumCarry_xor_ones, sumByte_xor_ones]
  rfl

/-- The decimal difference of the claims is the ALU's, with the binary flags (R108). -/
theorem subDecimal_eq (m : Byte) (c : Cpu) :
    subDecimal m c = { subBinary m c with a := subDecResult c.a m c.p.c } := by
  dsimp only [subDecResult]
  rw [carryNat_eq_toNat, toNat_and_lowDigit, toNat_and_lowDigit, toNat_and_highDigit, toNat_and_highDigit]
  rfl

/-- `Sub(m)` of the claims is the ALU's, in the mode of the state. -/
theorem subtracted_eq (s : State) (m : Byte) (c : Cpu) : subtracted s m c =
    { c with a := (aluSub s.decimalAlu c.a m c.p).1, p := (aluSub s.decimalAlu c.a m c.p).2 } := by
  rw [subtracted, subDecimal_eq, subBinary_eq s.decimalAlu]
  simp only [aluSub, State.decimalAlu, Bool.and_eq_true, decide_eq_true_eq]
  split <;> rfl

/-- C of the binary subtraction, by the borrow. -/
theorem subBinary_c (m : Byte) (c : Cpu) :
    (subBinary m c).p.c = decide ((m.toNat : Int) ≤ c.a.toNat + c.p.c.toNat - 1) :=
  decide_eq_decide.mpr (by omega)

/-! ## Two decimal digits (R107, R108) -/

section Digits

variable {m : Byte} {c : Cpu} (ha : isBcd c.a) (hm : isBcd m)
include ha hm

/-- The digits of a decimal sum: `low` and `high` are the sums of the digits, the carry of the low ones added to the
high ones. -/
theorem addDecimal_digits {low high : Nat} (hlow : low = c.a.toNat % 16 + m.toNat % 16 + c.p.c.toNat)
    (hhigh : high = c.a.toNat / 16 + m.toNat / 16 + low / 10) :
    (Claims.addDecimal m c).a.toNat = high % 10 * 16 + low % 10 ∧
      (Claims.addDecimal m c).p.c = decide (10 ≤ high) := by
  have carry := c.p.c.toNat_le
  obtain ⟨aHigh, aLow⟩ := ha
  obtain ⟨mHigh, mLow⟩ := hm
  have lowDigit : (if 10 ≤ low then (low + 6) % 16 + 16 else low) = low / 10 * 16 + low % 10 := by
    split <;> omega
  have mid : c.a.toNat / 16 * 16 + m.toNat / 16 * 16 + (low / 10 * 16 + low % 10) = high * 16 + low % 10 := by
    omega
  have highDigit : (if 0xA0 ≤ high * 16 + low % 10 then high * 16 + low % 10 + 0x60 else high * 16 + low % 10) =
      high / 10 * 256 + high % 10 * 16 + low % 10 := by
    split <;> omega
  have tens : 1 ≤ high / 10 ↔ 10 ≤ high := by omega
  dsimp only [Claims.addDecimal]
  rw [← hlow, lowDigit, mid, highDigit, BitVec.toNat_ofNat]
  exact ⟨by omega, decide_eq_decide.mpr (by omega)⟩

/-- So two decimal digits add as numbers below 100. -/
theorem addDecimal_bcd : isBcd (Claims.addDecimal m c).a ∧
    bcdValue (Claims.addDecimal m c).a = (bcdValue c.a + bcdValue m + c.p.c.toNat) % 100 ∧
    (Claims.addDecimal m c).p.c = decide (100 ≤ bcdValue c.a + bcdValue m + c.p.c.toNat) := by
  obtain ⟨digits, carry⟩ := addDecimal_digits ha hm rfl rfl
  have small := c.p.c.toNat_le
  obtain ⟨aHigh, aLow⟩ := ha
  obtain ⟨mHigh, mLow⟩ := hm
  rw [isBcd, bcdValue, bcdValue, bcdValue, digits, carry]
  exact ⟨by omega, by omega, decide_eq_decide.mpr (by omega)⟩

/-- The digits of a decimal difference, the borrow of the low ones taken from the high ones. -/
theorem subDecimal_digits {low high : Int}
    (hlow : low = (c.a.toNat % 16 : Nat) - (m.toNat % 16 : Nat) + c.p.c.toNat - 1)
    (hhigh : high = (c.a.toNat / 16 : Nat) - (m.toNat / 16 : Nat) + low / 10) :
    ((subDecimal m c).a.toNat : Int) = high % 10 * 16 + low % 10 ∧ (subDecimal m c).p.c = decide (0 ≤ high) := by
  have carry := c.p.c.toNat_le
  obtain ⟨aHigh, aLow⟩ := ha
  obtain ⟨mHigh, mLow⟩ := hm
  have lowDigit : (if low < 0 then (low - 6) % 16 - 16 else low) = low / 10 * 16 + low % 10 := by
    split <;> omega
  have mid : ((c.a.toNat / 16 * 16 : Nat) : Int) - (m.toNat / 16 * 16 : Nat) + (low / 10 * 16 + low % 10) =
      high * 16 + low % 10 := by
    omega
  have highDigit : (if high * 16 + low % 10 < 0 then high * 16 + low % 10 - 0x60 else high * 16 + low % 10) =
      high / 10 * 256 + high % 10 * 16 + low % 10 := by
    split <;> omega
  dsimp only [subDecimal, subBinary]
  rw [← hlow, lowDigit, mid, highDigit, BitVec.toNat_ofInt]
  exact ⟨by omega, decide_eq_decide.mpr (by omega)⟩

/-- So two decimal digits subtract as numbers below 100. -/
theorem subDecimal_bcd : isBcd (subDecimal m c).a ∧
    (bcdValue (subDecimal m c).a : Int) = ((bcdValue c.a : Int) - bcdValue m - (1 - c.p.c.toNat)) % 100 ∧
    (subDecimal m c).p.c = decide ((bcdValue m : Int) + (1 - c.p.c.toNat) ≤ bcdValue c.a) := by
  obtain ⟨digits, carry⟩ := subDecimal_digits ha hm rfl rfl
  have small := c.p.c.toNat_le
  obtain ⟨aHigh, aLow⟩ := ha
  obtain ⟨mHigh, mLow⟩ := hm
  rw [isBcd, bcdValue, bcdValue, bcdValue, carry]
  exact ⟨by omega, by omega, decide_eq_decide.mpr (by omega)⟩

end Digits

/-! ## Shifts and rotates (R110) -/

theorem aluAsl_eq (v : Byte) (p : Flags) :
    aluAsl v p = (BitVec.ofNat 8 (v.toNat * 2), { p with c := v.getLsbD 7 }) := by
  refine Prod.ext (BitVec.eq_of_toNat_eq ?_) rfl
  rw [BitVec.toNat_ofNat, ← Nat.shiftLeft_eq v.toNat 1]
  exact BitVec.toNat_shiftLeft

theorem aluLsr_eq (v : Byte) (p : Flags) :
    aluLsr v p = (BitVec.ofNat 8 (v.toNat / 2), { p with c := v.getLsbD 0 }) := by
  refine Prod.ext (BitVec.eq_of_toNat_eq ?_) rfl
  have small := v.isLt
  rw [BitVec.toNat_ofNat, Nat.mod_eq_of_lt (by omega)]
  exact BitVec.toNat_ushiftRight v 1

/-- The nine bits are the bit shifted out, in C, and the byte below it. -/
theorem aluRol_rotates (v : Byte) (p : Flags) :
    (BitVec.ofBool (aluRol v p).2.c ++ (aluRol v p).1 : BitVec 9) =
      (BitVec.ofBool p.c ++ v : BitVec 9).rotateLeft 1 := by
  apply BitVec.eq_of_getLsbD_eq
  intro k hk
  rw [BitVec.getLsbD_rotateLeft]
  simp only [BitVec.getLsbD_append, aluRol, flagByte_eq_setWidth]
  interval_cases k <;> simp [bit7, Flags.setC]

theorem aluRor_rotates (v : Byte) (p : Flags) :
    (BitVec.ofBool (aluRor v p).2.c ++ (aluRor v p).1 : BitVec 9) =
      (BitVec.ofBool p.c ++ v : BitVec 9).rotateRight 1 := by
  apply BitVec.eq_of_getLsbD_eq
  intro k hk
  rw [BitVec.getLsbD_rotateRight]
  simp only [BitVec.getLsbD_append, aluRor, flagByte_eq_setWidth]
  interval_cases k <;> simp [bit0, Flags.setC]

/-- Settles O35: the shifts as numbers, the rotates bit by bit. -/
theorem shiftFunctions : Obligations.ShiftFunctions :=
  fun v p => ⟨aluAsl_eq v p, aluLsr_eq v p, aluRol_rotates v p, aluRor_rotates v p, rfl, rfl⟩

end Sys2Proof.Machine
end

section
/-! SUPPORT. Arithmetic, logic, shifts and steps: each operation on the registers and the byte in the terms of the
claims, then the instructions by mnemonic (R79, R89, R105 to R125, R160 to R162, R172). -/

namespace Sys2Proof.Machine

open Sys2Proof.Claims

variable {i : Instr}

/-! ## Operations that look at the parameters (R10, R105, R106) -/

theorem operand_params (cls : i.accessClass = .read) (s : State) : (operand i s).2.params = s.params := by
  obtain imm | ⟨m, hm⟩ := imm_or_memMode_of_read cls
  · rw [operand_imm imm, State.fetch_params]
  · rw [operand_mem hm, State.memRead_params, State.resolve_params]

/-- `readsThen_of_op` for an operation that asks for the decimal mode, which reading the operand leaves alone. -/
theorem readsThen_of_paramOp {f : Byte → Cpu → Cpu} (cls : i.accessClass = .read) {s : State}
    (hop : ∀ v u, u.params = s.params → readOp i.mnemonic v u = { u with cpu := f v u.cpu }) : readsThen i s f := by
  rw [readsThen, exec_operand cls, hop _ _ (operand_params cls s), operand_cpu cls]

theorem State.decimalAlu_congr {s u : State} (h : u.params = s.params) : u.decimalAlu = s.decimalAlu := by
  rw [State.decimalAlu, State.decimalAlu, h]

theorem opAdc_eq_added {s u : State} (h : u.params = s.params) (m : Byte) :
    opAdc m u = { u with cpu := added s m u.cpu } := by
  rw [added_eq, ← State.decimalAlu_congr h]
  rfl

theorem opSbc_eq_subtracted {s u : State} (h : u.params = s.params) (m : Byte) :
    opSbc m u = { u with cpu := subtracted s m u.cpu } := by
  rw [subtracted_eq, ← State.decimalAlu_congr h]
  rfl

/-! ## Class `M`: the old value, the operation, the new value (R89) -/

/-- The mnemonics that stand for an operation on a byte of memory alone are of class `M` in every mode (R73). -/
theorem accessClass_rmw_of_mnemonic (h : i.mnemonic ∈ [Mnemonic.INC, .DEC, .SLO, .RLA, .SRE, .RRA, .DCP, .ISB]) :
    i.accessClass = .rmw := by
  cases i <;> first
    | rfl
    | exact absurd h (by decide)

/-- The shifts of A are of class `implied`, those of memory of class `M` (R73). -/
theorem accessClass_of_shift
    (h : i.mnemonic = .ASL ∨ i.mnemonic = .LSR ∨ i.mnemonic = .ROL ∨ i.mnemonic = .ROR) :
    i.accessClass = if i.mode = .acc then .implied else .rmw := by
  cases i <;> first
    | rfl
    | exact absurd h (by decide)

/-- A class `M` instruction whose operation changes the byte and the registers by `f`. -/
theorem modifies_of_op {f : Byte → Cpu → Byte × Cpu} (cls : i.accessClass = .rmw) {s : State}
    (hop : ∀ v u, u.params = s.params →
      rmwOp i.mnemonic v u = ((f v u.cpu).1, { u with cpu := (f v u.cpu).2 })) : modifies i s f := by
  obtain ⟨m, hm⟩ := exists_memMode_of_stores (.inr cls)
  rw [modifies, exec_rmw cls hm, State.runRmw_eq, hop _ _ (State.rmwOld_params s m), State.rmwOld_cpu,
    target_eq hm, if_pos cls, past, memModeOf_bytes hm]
  rfl

theorem opRra_eq_added {s u : State} (h : u.params = s.params) (v : Byte) :
    opRra v u = ((shifted .ROR v u.cpu.p.c).1, { u with
      cpu := added s (shifted .ROR v u.cpu.p.c).1
        { u.cpu with p := { u.cpu.p with c := (shifted .ROR v u.cpu.p.c).2 } } }) := by
  rw [added_eq, ← State.decimalAlu_congr h, opRra, aluRor, flagByte_eq_setWidth]
  rfl

theorem opIsb_eq_subtracted {s u : State} (h : u.params = s.params) (v : Byte) :
    opIsb v u = (v + 1#8, { u with cpu := subtracted s (v + 1#8) u.cpu }) := by
  rw [subtracted_eq, ← State.decimalAlu_congr h]
  rfl

/-! ## Shifts and rotates, of memory and of A (R120 to R123) -/

section Shift

variable {k : Mnemonic} (hk : k = .ASL ∨ k = .LSR ∨ k = .ROL ∨ k = .ROR)
include hk

/-- The shift of a mnemonic in the terms of the claims. -/
theorem exists_shift : ∃ f : Byte → Flags → Byte × Flags,
    rmwOp k = (fun v u => u.shiftByte f v) ∧ impliedOp k = (fun u => u.shiftA f) ∧
      ∀ v p, f v p = ((shifted k v p.c).1, { p with c := (shifted k v p.c).2 }) := by
  obtain rfl | rfl | rfl | rfl := hk
  · exact ⟨aluAsl, rfl, rfl, fun _ _ => rfl⟩
  · exact ⟨aluLsr, rfl, rfl, fun _ _ => rfl⟩
  · exact ⟨aluRol, rfl, rfl, fun _ _ => by rw [aluRol, flagByte_eq_setWidth]; rfl⟩
  · exact ⟨aluRor, rfl, rfl, fun _ _ => by rw [aluRor, flagByte_eq_setWidth]; rfl⟩

theorem rmwOp_shift (v : Byte) (u : State) : rmwOp k v u = ((shifted k v u.cpu.p.c).1, { u with cpu := { u.cpu with
    p := { nz u.cpu.p (shifted k v u.cpu.p.c).1 with c := (shifted k v u.cpu.p.c).2 } } }) := by
  obtain ⟨f, rmw, -, shift⟩ := exists_shift hk
  simp only [rmw, State.shiftByte, shift]
  rfl

theorem impliedOp_shift (u : State) : impliedOp k u = { u with cpu := { u.cpu with
    a := (shifted k u.cpu.a u.cpu.p.c).1
    p := { nz u.cpu.p (shifted k u.cpu.a u.cpu.p.c).1 with c := (shifted k u.cpu.a u.cpu.p.c).2 } } } := by
  obtain ⟨f, -, implied, shift⟩ := exists_shift hk
  simp only [implied, State.shiftA, State.shiftByte, shift]
  rfl

end Shift

/-! ## The instructions, by mnemonic -/

/-- Settles O30: each operation writes A, N and Z, and BIT its three flags. -/
theorem logicResults : Obligations.LogicResults := by
  intro i s
  refine ⟨fun hk => ?_, fun hk => ?_, fun hk => ?_, fun hk => ?_⟩
  all_goals
    exact readsThen_of_op (accessClass_read_of_mnemonic (by simp [hk])) (fun _ _ => by rw [hk]; rfl) s

/-- ADC in either mode. -/
theorem adc_readsThen (hk : i.mnemonic = .ADC) (s : State) : readsThen i s (added s) :=
  readsThen_of_paramOp (accessClass_read_of_mnemonic (by simp [hk]))
    (fun v _ h => by rw [hk]; exact opAdc_eq_added h v)

/-- SBC and USBC, the same operation (R172), in either mode. -/
theorem sbc_readsThen (hk : i.mnemonic = .SBC ∨ i.mnemonic = .USBC) (s : State) : readsThen i s (subtracted s) :=
  readsThen_of_paramOp (accessClass_read_of_mnemonic (by obtain hk | hk := hk <;> simp [hk]))
    (fun v _ h => by obtain hk | hk := hk <;> (rw [hk]; exact opSbc_eq_subtracted h v))

/-- Settles O31: `added_eq` in both instructions, and the sign rule of V. -/
theorem addResults : Obligations.AddResults := by
  refine fun i s => ⟨fun hk => adc_readsThen hk s, fun hk => ?_, addBinary_v⟩
  exact modifies_of_op (accessClass_rmw_of_mnemonic (by simp [hk]))
    (fun v _ h => by rw [hk]; exact opRra_eq_added h v)

/-- Settles O32: `subtracted_eq` in the three instructions, and the borrow rule of C. -/
theorem subtractResults : Obligations.SubtractResults := by
  refine fun i s => ⟨fun hk => sbc_readsThen hk s, fun hk => ?_, subBinary_c⟩
  exact modifies_of_op (accessClass_rmw_of_mnemonic (by simp [hk]))
    (fun v _ h => by rw [hk]; exact opIsb_eq_subtracted h v)

/-- Settles O33: in decimal mode the registers after ADC and SBC are those of the decimal sum and difference. -/
theorem decimalArithmetic : Obligations.DecimalArithmetic := by
  intro i s decimal ha hm
  have mode : s.params.decimalMode = .nmosBcd ∧ (past i s).p.d = true := decimal
  refine ⟨fun hk => ⟨_, adc_readsThen hk s, ?_⟩, fun hk => ⟨_, sbc_readsThen (.inl hk) s, ?_⟩⟩
  · rw [added, if_pos mode]
    exact addDecimal_bcd (c := past i s) ha hm
  · rw [subtracted, if_pos mode]
    exact subDecimal_bcd (c := past i s) ha hm

/-- Settles O34: each operation writes the three flags of the comparison, in every decimal mode. -/
theorem compareResults : Obligations.CompareResults := by
  intro i s
  refine ⟨fun hk => ?cmp, fun hk => ?cpx, fun hk => ?cpy, fun hk => ?dcp⟩
  case dcp => exact modifies_of_op (accessClass_rmw_of_mnemonic (by simp [hk])) (fun _ _ _ => by rw [hk]; rfl)
  all_goals
    exact readsThen_of_op (accessClass_read_of_mnemonic (by simp [hk])) (fun _ _ => by rw [hk]; rfl) s

/-- Settles O36: INC and DEC write N and Z from the new byte; a shift is of A or of memory by its mode. -/
theorem shiftAndStepResults : Obligations.ShiftAndStepResults := by
  intro i s
  refine ⟨fun hk => ?inc, fun hk => ?dec, fun hk => ⟨fun acc => ?acc, fun mem => ?mem⟩⟩
  case acc =>
    exact registersBecome_of_op ((accessClass_of_shift hk).trans (if_pos acc)) (impliedOp_shift hk) s
  case mem =>
    exact modifies_of_op ((accessClass_of_shift hk).trans (if_neg mem)) (fun v u _ => rmwOp_shift hk v u)
  all_goals
    exact modifies_of_op (accessClass_rmw_of_mnemonic (by simp [hk])) (fun _ _ _ => by rw [hk]; rfl)

end Sys2Proof.Machine
end

section
/-! SUPPORT. The stack: bytes pushed one below the other, the bytes a pull finds, and the poll of a read (R19, R183). -/

namespace Sys2Proof.Machine

open Sys2Proof.Claims

/-! ## Addresses of the stack page (R19) -/

/-- Two addresses of the stack page name one byte only if they are one slot. -/
theorem stackSlots_apart {b : Bus} {x y : Byte} (h : x ≠ y) :
    ¬ Alias b (joinBytes 0x01#8 x) (joinBytes 0x01#8 y) := by
  have hx := joinBytes_toNat 0x01#8 x
  have hy := joinBytes_toNat 0x01#8 y
  have low := joinBytes_one_lt x
  have low' := joinBytes_one_lt y
  rintro (e | ⟨-, -, -, e⟩)
  · rw [e] at hx
    exact h (BitVec.eq_of_toNat_eq (by omega))
  · exact h (BitVec.eq_of_toNat_eq (by omega))

/-- The stack page is no mirror of anything above the RAM. -/
theorem stack_apart_from_high (b : Bus) (x : Byte) {a : Word} (h : 0x2000 ≤ a.toNat) :
    ¬ Alias b (joinBytes 0x01#8 x) a := by
  have low := joinBytes_one_lt x
  rintro (rfl | ⟨-, -, high, -⟩) <;> omega

theorem joinBytes_hiByte_loByte (w : Word) : joinBytes (hiByte w) (loByte w) = w := by
  have whole : joinBytes (hiByte w) (loByte w) = w.extractLsb' 0 16 :=
    BitVec.extractLsb'_append_extractLsb'_eq_extractLsb' rfl
  rw [whole, BitVec.extractLsb'_eq_self]

/-! ## Bytes pushed (R19) -/

/-- The state after pushing the bytes of a list, first to last (`pushed_eq_pushAll`, `State.callPushed`). -/
def State.pushAll (s : State) (vs : List Byte) : State := vs.foldl State.push s

section Pushes

variable {s : State} {vs : List Byte}

theorem State.pushAll_cons (s : State) (v : Byte) (vs : List Byte) :
    s.pushAll (v :: vs) = (s.push v).pushAll vs := rfl

/-- Pushing lowers S by one a byte and changes no other register. -/
theorem State.pushAll_cpu (s : State) (vs : List Byte) :
    (s.pushAll vs).cpu = { s.cpu with s := s.cpu.s - BitVec.ofNat 8 vs.length } := by
  induction vs generalizing s with
  | nil => simp [State.pushAll]
  | cons v vs ih =>
    simp [State.pushAll_cons, ih, BitVec.ofNat_add, BitVec.sub_sub, BitVec.add_comm]

theorem State.pushAll_wf (wf : s.wf = true) (vs : List Byte) : (s.pushAll vs).wf = true := by
  induction vs generalizing s with
  | nil => exact wf
  | cons v vs ih => exact ih (State.push_wf wf v)

/-- The slot `k` below the top after a push is the slot `k + 1` below the top of before. -/
theorem slotBelow_push (s : State) (v : Byte) (k : Nat) :
    slotBelow (s.push v) (BitVec.ofNat 8 k) = slotBelow s (BitVec.ofNat 8 (k + 1)) := by
  rw [slotBelow, slotBelow, State.push_cpu, BitVec.ofNat_add, BitVec.add_comm, BitVec.sub_sub]

/-- Pushing changes no byte but those of the slots pushed to. -/
theorem State.pushAll_peek_other (wf : s.wf = true) {b : Word}
    (h : ∀ k < vs.length, ¬ Alias s.params.bus (slotBelow s (BitVec.ofNat 8 k)) b) :
    (s.pushAll vs).peek b = s.peek b := by
  induction vs generalizing s with
  | nil => rfl
  | cons v vs ih =>
    have top := h 0 (by simp)
    rw [slotBelow_top.1] at top
    rw [State.pushAll_cons, ih (State.push_wf wf v), State.push_peek_other wf v top]
    intro k hk
    rw [State.push_params, slotBelow_push]
    exact h (k + 1) (by simpa using hk)

/-- The bytes pushed stand in the slots from the top down; no more than 256 of them fit. -/
theorem State.pushAll_peek_slot (wf : s.wf = true) (fits : vs.length ≤ 256) {k : Nat} (hk : k < vs.length) :
    (s.pushAll vs).peek (slotBelow s (BitVec.ofNat 8 k)) = some vs[k] := by
  induction vs generalizing s k with
  | nil => simp at hk
  | cons v vs ih =>
    simp only [List.length_cons] at fits hk
    rw [State.pushAll_cons]
    cases k with
    | succ k =>
      rw [← slotBelow_push s v]
      exact ih (State.push_wf wf v) (by omega) (by omega)
    | zero =>
      rw [State.pushAll_peek_other (State.push_wf wf v), slotBelow_top.1]
      · exact State.push_peek_same wf v
      · intro j hj
        rw [slotBelow_push]
        refine stackSlots_apart fun e => ?_
        have same : BitVec.ofNat 8 (j + 1) = BitVec.ofNat 8 0 := sub_right_inj.mp e
        have := congrArg BitVec.toNat same
        rw [BitVec.toNat_ofNat, BitVec.toNat_ofNat] at this
        omega

end Pushes

/-! ## Bytes pulled (R19) -/

@[simp] theorem State.pull_stackByte (s : State) : s.pull.1 = stackByte s 1#8 := s.pull_fst

section StackBytes

variable (s : State) (k : Byte)

@[simp] theorem stackByte_dummyRead (a : Word) : stackByte (s.dummyRead a) k = stackByte s k := by
  simp [stackByte]

@[simp] theorem stackByte_fetch : stackByte s.fetch.2 k = stackByte s k := by
  simp [stackByte]

@[simp] theorem stackByte_setP (p : Flags) : stackByte (s.setP p) k = stackByte s k := rfl

@[simp] theorem stackByte_pull : stackByte s.pull.2 k = stackByte s (1#8 + k) := by
  simp [stackByte, BitVec.add_assoc]

variable {s k}

/-- A byte that stands in slot `k` below the top is found `j` above it when S is `j + k` lower. -/
theorem stackByte_of_slot {t : State} {j v : Byte} (lowered : t.cpu.s = s.cpu.s - (j + k))
    (slot : t.peek (slotBelow s k) = some v) : stackByte t j = v := by
  have place : t.cpu.s + j = s.cpu.s - k := by
    rw [lowered, add_comm j k, ← sub_sub, sub_add_cancel]
  rw [slotBelow, ← place, t.peek_low (joinBytes_one_lt _)] at slot
  exact Option.some.inj slot

end StackBytes

/-! ## Counting cycles by the log (R43) -/

theorem State.logged_of_log {s t : State} {accesses : List Access} (h : logOf t = accesses.reverse ++ logOf s) :
    t.logged = s.logged + accesses.length := by
  have length := congrArg List.length h
  simp only [logOf, List.length_append, List.length_reverse, List.length_map] at length
  rw [State.logged, State.logged, length, Nat.add_comm]

@[simp] theorem State.push_logged (s : State) (v : Byte) : (s.push v).logged = s.logged + 1 :=
  State.logged_of_log (accesses := [(.write, joinBytes 0x01#8 s.cpu.s)]) (logOf_push s v)

/-! ## The NMI latches across a read (R183) -/

/-- A read logs one cycle, and the latches after its poll follow from that cycle's NMI pin and those of before. -/
theorem State.memRead_poll (s : State) (a : Word) : ∃ c : BusCycle,
    (s.memRead a).2.busLog = c :: s.busLog ∧ (s.memRead a).2.lat.nmiLevelPrev = c.pins.nmi ∧
    (s.memRead a).2.lat.prevNeedNmi = s.lat.needNmi ∧
    (s.memRead a).2.lat.needNmi = (s.lat.needNmi || (c.pins.nmi && !s.lat.nmiLevelPrev)) := by
  simp [State.memRead_snd, State.endCycle_busLog, State.endCycle_lat, Latches.poll]

end Sys2Proof.Machine
end

section
/-! SUPPORT. Control: JMP, the subroutine and stack instructions, BRK and RTI, and the instructions that do nothing
(R139 to R147, R155, R178, R179). -/

namespace Sys2Proof.Machine

open Sys2Proof.Claims

/-! ## The interrupt entry (R143, R186, R187) -/

theorem pushed_eq_pushAll (s : State) (b : Bool) :
    pushed s b = s.pushAll [hiByte s.cpu.pc, loByte s.cpu.pc, s.cpu.p.toByte b] := rfl

/-- Choosing the vector leaves no NMI pending, whether it took one or not (R187). -/
theorem State.selectVector_eq (s : State) :
    s.selectVector irqVector = (vectorOf s, { s with lat := { s.lat with needNmi := false } }) := by
  obtain ⟨params, cpu, ⟨prev, need, prevNeed, irq, prevIrq, reset⟩⟩ := s
  cases need <;> rfl

/-- A state after the three pushes of an entry, with the vector chosen and I set. -/
def State.vectored (s : State) : State := ({ s with lat := { s.lat with needNmi := false } } : State).setI true

theorem State.vectored_cpu (s : State) : s.vectored.cpu = { s.cpu with p := { s.cpu.p with i := true } } := rfl
theorem State.vectored_peek (s : State) (a : Word) : s.vectored.peek a = s.peek a := rfl
theorem State.vectored_logged (s : State) : s.vectored.logged = s.logged := rfl

theorem State.enterInterrupt_eq (s : State) (b : Bool) :
    s.enterInterrupt b = (pushed s b).vectored.loadPc (vectorOf (pushed s b)) := by
  have pushes : ((s.push (hiByte s.cpu.pc)).push (loByte (s.push (hiByte s.cpu.pc)).cpu.pc)).push
      (((s.push (hiByte s.cpu.pc)).push (loByte (s.push (hiByte s.cpu.pc)).cpu.pc)).cpu.p.toByte b) = pushed s b := by
    simp [pushed]
  simp only [State.enterInterrupt, pushes, State.selectVector_eq]
  rfl

section LoadPc

variable (s : State) (a : Word)

theorem State.loadPc_eq : s.loadPc a = ((s.memRead a).2.memRead (a + 1#16)).2.setPc
    (joinBytes ((s.memRead a).2.memRead (a + 1#16)).1 (s.memRead a).1) := rfl

@[simp] theorem State.loadPc_logged : (s.loadPc a).logged = s.logged + 2 := by simp [State.loadPc_eq]

@[simp] theorem State.loadPc_peek (b : Word) : (s.loadPc a).peek b = s.peek b := by simp [State.loadPc_eq]

/-- From a vector that is memory PC is its two bytes, low first. -/
theorem State.loadPc_cpu {lo hi : Byte} (low : s.peek a = some lo) (high : s.peek (a + 1#16) = some hi) :
    (s.loadPc a).cpu = { s.cpu with pc := joinBytes hi lo } := by
  rw [State.loadPc_eq, State.memRead_of_peek low, State.memRead_of_peek (by simpa using high), State.setPc_cpu,
    State.memRead_cpu, State.memRead_cpu]

/-- The two polls of a vector read. -/
theorem State.loadPc_poll : ∃ lo hi : BusCycle, (s.loadPc a).busLog = hi :: lo :: s.busLog ∧
    (s.loadPc a).lat.prevNeedNmi = (s.lat.needNmi || (lo.pins.nmi && !s.lat.nmiLevelPrev)) ∧
    (s.loadPc a).lat.needNmi = (s.lat.needNmi || (lo.pins.nmi && !s.lat.nmiLevelPrev) ||
      (hi.pins.nmi && !lo.pins.nmi)) := by
  obtain ⟨lo, loLog, loLevel, -, loNeed⟩ := s.memRead_poll a
  obtain ⟨hi, hiLog, -, hiPrev, hiNeed⟩ := (s.memRead a).2.memRead_poll (a + 1#16)
  refine ⟨lo, hi, ?_, ?_, ?_⟩
  · rw [State.loadPc_eq, State.setPc_busLog, hiLog, loLog]
  · rw [State.loadPc_eq, State.setPc_lat, hiPrev, loNeed]
  · rw [State.loadPc_eq, State.setPc_lat, hiNeed, loNeed, loLevel]

end LoadPc

/-- From 0x4020 up all is memory (R52, R56). -/
theorem State.peek_high (s : State) {a : Word} (h : 0x4020 ≤ a.toNat) : ∃ v, s.peek a = some v := by
  refine Option.ne_none_iff_exists'.mp fun refused => ?_
  obtain ⟨-, -, below⟩ := (s.peek_eq_none_iff a).mp refused
  omega

/-- Both vectors, and the byte after each, lie at the top of memory (R55). -/
theorem vectorOf_high (s : State) : 0x4020 ≤ (vectorOf s).toNat ∧ 0x4020 ≤ (vectorOf s + 1#16).toNat := by
  unfold vectorOf
  split <;> decide

section Entry

variable {s : State} (wf : s.wf = true) (b : Bool)

theorem State.enterInterrupt_peek (s : State) (a : Word) : (s.enterInterrupt b).peek a = (pushed s b).peek a := by
  rw [State.enterInterrupt_eq, State.loadPc_peek, State.vectored_peek]

include wf

/-- The pushes of an entry change no byte but those of their three slots. -/
theorem pushed_peek_other {a : Word} (h0 : ¬ Alias s.params.bus (slotBelow s 0#8) a)
    (h1 : ¬ Alias s.params.bus (slotBelow s 1#8) a) (h2 : ¬ Alias s.params.bus (slotBelow s 2#8) a) :
    (pushed s b).peek a = s.peek a := by
  rw [pushed_eq_pushAll]
  refine State.pushAll_peek_other wf fun k hk => ?_
  change k < 3 at hk
  interval_cases k
  · exact h0
  · exact h1
  · exact h2

theorem State.enterInterrupt_registers : ∃ lo hi, s.peek (vectorOf (pushed s b)) = some lo ∧
    s.peek (vectorOf (pushed s b) + 1#16) = some hi ∧ (s.enterInterrupt b).cpu =
      { s.cpu with s := s.cpu.s - 3#8, p := { s.cpu.p with i := true }, pc := joinBytes hi lo } := by
  have kept : ∀ a : Word, 0x4020 ≤ a.toNat → (pushed s b).vectored.peek a = s.peek a := fun a high => by
    have apart := fun k => stack_apart_from_high s.params.bus (s.cpu.s - k) (a := a) (by omega)
    exact pushed_peek_other wf b (apart 0#8) (apart 1#8) (apart 2#8)
  obtain ⟨loHigh, hiHigh⟩ := vectorOf_high (pushed s b)
  obtain ⟨lo, low⟩ := s.peek_high loHigh
  obtain ⟨hi, high⟩ := s.peek_high hiHigh
  refine ⟨lo, hi, low, high, ?_⟩
  rw [State.enterInterrupt_eq, State.loadPc_cpu _ _ ((kept _ loHigh).trans low) ((kept _ hiHigh).trans high),
    State.vectored_cpu, pushed_eq_pushAll, State.pushAll_cpu]
  rfl

/-- What every interrupt entry leaves, from a well-formed state. -/
theorem State.enterInterrupt_entered : entered s b (s.enterInterrupt b) := by
  have peek := s.enterInterrupt_peek b
  have slot := fun k => State.pushAll_peek_slot (k := k) wf
    (vs := [hiByte s.cpu.pc, loByte s.cpu.pc, s.cpu.p.toByte b]) (by simp)
  refine ⟨State.enterInterrupt_registers wf b, (peek _).trans (slot 0 (by simp)), (peek _).trans (slot 1 (by simp)),
    (peek _).trans (slot 2 (by simp)), fun a h0 h1 h2 => (peek a).trans (pushed_peek_other wf b h0 h1 h2), ?_⟩
  rw [State.enterInterrupt_eq]
  exact (pushed s b).vectored.loadPc_poll _

end Entry

/-- Three pushes and two vector reads. -/
@[simp] theorem State.enterInterrupt_logged (s : State) (b : Bool) : (s.enterInterrupt b).logged = s.logged + 5 := by
  rw [State.enterInterrupt_eq, State.loadPc_logged, State.vectored_logged]
  simp [pushed]

/-- Settles O22: BRK is the entry shared with the hardware interrupts, after the fetch of the padding byte. -/
theorem brkEntry : Obligations.BrkEntry := by
  intro s wf
  have fetched : s.fetch.2.wf = true := wf_closed.fetch id wf
  refine ⟨_, rfl, State.enterInterrupt_entered fetched true, s.fetch_cpu, ?_⟩
  rw [State.softwareInterrupt, State.enterInterrupt_logged, State.fetch_logged]

/-! ## Pulls: RTI, RTS, PLA and PLP (R141, R142, R146, R147) -/

/-- RTI in the bytes above the top of the stack: P, then PC. -/
theorem State.returnFromInterrupt_registers (s : State) : s.returnFromInterrupt.cpu =
    { s.cpu with
      s := s.cpu.s + 3#8
      pc := joinBytes (stackByte s 3#8) (stackByte s 2#8)
      p := Flags.ofByte (stackByte s 1#8) } := by
  simp [State.returnFromInterrupt, State.setPc_cpu, State.setP_cpu, BitVec.add_assoc]

/-- Settles O23: the three pulls, and that reads change no byte. -/
theorem rtiResult : Obligations.RtiResult := fun s =>
  ⟨_, rfl, s.returnFromInterrupt_registers,
    (sameStore_reads.returnFromInterrupt (sameStore_reads.refl s)).sameMemory⟩

/-- RTS in the bytes above the top of the stack: PC is one past what they name. -/
theorem State.returnSub_registers (s : State) : s.returnSub.cpu =
    { s.cpu with s := s.cpu.s + 2#8, pc := joinBytes (stackByte s 2#8) (stackByte s 1#8) + 1#16 } := by
  simp [State.returnSub, State.setPc_cpu, BitVec.add_assoc]

theorem State.pullA_registers (s : State) : s.pullA.cpu =
    { s.cpu with s := s.cpu.s + 1#8, a := stackByte s 1#8, p := nz s.cpu.p (stackByte s 1#8) } := by
  simp [State.pullA, State.pullByte, State.loadA, State.mapP, State.setP_cpu, State.setA_cpu]
  rfl

theorem State.pullP_registers (s : State) : s.pullP.cpu =
    { s.cpu with s := s.cpu.s + 1#8, p := Flags.ofByte (stackByte s 1#8) } := by
  simp [State.pullP, State.pullByte, State.setP_cpu]

/-! ## JSR (R140) -/

/-- The state of a JSR after its pushes: its low operand byte is fetched, and PC is at the high one. -/
def State.callPushed (s : State) : State :=
  (s.fetch.2.dummyRead s.stackAddr).pushAll [hiByte (s.cpu.pc + 1#16), loByte (s.cpu.pc + 1#16)]

/-- The reads before the pushes leave the slots where they are. -/
theorem slotBelow_callStart (s : State) (k : Byte) : slotBelow (s.fetch.2.dummyRead s.stackAddr) k = slotBelow s k := by
  simp [slotBelow]

theorem State.jumpSub_eq (s : State) : s.jumpSub = (s.callPushed.memRead (s.cpu.pc + 1#16)).2.setPc
    (joinBytes (s.callPushed.memRead (s.cpu.pc + 1#16)).1 s.fetch.1) := by
  simp [State.jumpSub, State.callPushed, State.pushAll, State.stackAddr]

theorem State.jumpSub_registers (s : State) :
    s.jumpSub.cpu = { s.cpu with s := s.cpu.s - 2#8, pc := s.jumpSub.cpu.pc } := by
  obtain ⟨pc, cpu⟩ := s.jumpSub_cpu
  rw [cpu, BitVec.sub_sub]
  rfl

theorem State.jumpSub_peek (s : State) (a : Word) : s.jumpSub.peek a = s.callPushed.peek a := by
  rw [State.jumpSub_eq, State.setPc_peek, State.memRead_peek]

section Call

variable {s : State} (wf : s.wf = true)
include wf

theorem State.callStart_wf : (s.fetch.2.dummyRead s.stackAddr).wf = true :=
  wf_closed.dummyRead _ (wf_closed.fetch id) wf

/-- The return address stands in the two slots from the top down, high byte first. -/
theorem State.callPushed_peek_slots : s.callPushed.peek (slotBelow s 0#8) = some (hiByte (s.cpu.pc + 1#16)) ∧
    s.callPushed.peek (slotBelow s 1#8) = some (loByte (s.cpu.pc + 1#16)) := by
  have slot := fun k => State.pushAll_peek_slot (k := k) (State.callStart_wf wf)
    (vs := [hiByte (s.cpu.pc + 1#16), loByte (s.cpu.pc + 1#16)]) (by simp)
  simp only [slotBelow_callStart] at slot
  exact ⟨slot 0 (by simp), slot 1 (by simp)⟩

/-- No other byte changes. -/
theorem State.callPushed_peek_other {a : Word} (h0 : ¬ Alias s.params.bus (slotBelow s 0#8) a)
    (h1 : ¬ Alias s.params.bus (slotBelow s 1#8) a) : s.callPushed.peek a = s.peek a := by
  rw [State.callPushed, State.pushAll_peek_other (State.callStart_wf wf), State.dummyRead_peek, State.fetch_peek]
  intro k hk
  rw [slotBelow_callStart, State.dummyRead_params, State.fetch_params]
  change k < 2 at hk
  interval_cases k
  · exact h0
  · exact h1

/-- The target, where the operand is memory and the pushes leave its high byte alone. -/
theorem State.jumpSub_pc {lo hi : Byte} (low : s.peek s.cpu.pc = some lo) (high : s.peek (s.cpu.pc + 1#16) = some hi)
    (h0 : ¬ Alias s.params.bus (slotBelow s 0#8) (s.cpu.pc + 1#16))
    (h1 : ¬ Alias s.params.bus (slotBelow s 1#8) (s.cpu.pc + 1#16)) : s.jumpSub.cpu.pc = joinBytes hi lo := by
  have kept := (State.callPushed_peek_other wf h0 h1).trans high
  rw [State.jumpSub_eq, State.setPc_pc, State.memRead_of_peek kept, State.fetch_of_peek low]

end Call

/-- Settles O41: JSR in its slots and its target, RTS in the bytes above the top; both by their logs in five cycles. -/
theorem subroutineResults : Obligations.SubroutineResults := by
  intro s wf
  have peek := s.jumpSub_peek
  obtain ⟨top, below⟩ := State.callPushed_peek_slots wf
  have other := fun a h0 h1 => (peek a).trans (State.callPushed_peek_other wf h0 h1)
  have memory := sameStore_reads.returnSub (sameStore_reads.refl s)
  refine ⟨⟨s.jumpSub, rfl, fun _ _ => State.jumpSub_pc wf, s.jumpSub_registers, (peek _).trans top,
    (peek _).trans below, other, ?_⟩, ⟨s.returnSub, rfl, s.returnSub_registers, memory.sameMemory, ?_⟩⟩
  · exact State.logged_of_log (logOf_jumpSub (b1 := 0#8) (b2 := 0#8))
  · exact State.logged_of_log (logOf_returnSub (b1 := 0#8) (b2 := 0#8))

/-- Settles O42: RTS pulls the two bytes JSR pushed, which name the last byte of the JSR. -/
theorem jsrThenRts : Obligations.JsrThenRts := by
  intro s t wf he
  obtain rfl : s.jumpSub = t := Host.Outcome.next.inj he
  obtain ⟨top, below⟩ := State.callPushed_peek_slots wf
  have lowered : s.jumpSub.cpu.s = s.cpu.s - 2#8 := by rw [s.jumpSub_registers]
  have hi := stackByte_of_slot (j := 2#8) lowered ((s.jumpSub_peek _).trans top)
  have lo := stackByte_of_slot (j := 1#8) lowered ((s.jumpSub_peek _).trans below)
  refine ⟨_, rfl, ?_⟩
  rw [State.returnSub_registers, stackByte_fetch, stackByte_fetch, hi, lo, joinBytes_hiByte_loByte, pc_add_two,
    State.fetch_cpu, s.jumpSub_registers]
  simp

/-! ## PHA, PHP, PLA and PLP (R144 to R147) -/

theorem State.pushA_eq (s : State) : s.pushA = (s.dummyRead s.cpu.pc).push s.cpu.a := by simp [State.pushA]

theorem State.pushP_eq (s : State) : s.pushP = (s.dummyRead s.cpu.pc).push (s.cpu.p.toByte true) := by
  simp [State.pushP]

/-- A push after a dummy read: its byte in the slot S names, and no other byte changed. -/
theorem State.dummyRead_push_peek {s : State} (wf : s.wf = true) (a : Word) (v : Byte) :
    ((s.dummyRead a).push v).peek (slotBelow s 0#8) = some v ∧
    ∀ b, ¬ sameCell s.params.bus (slotBelow s 0#8) b → ((s.dummyRead a).push v).peek b = s.peek b := by
  have read : (s.dummyRead a).wf = true := wf_closed.dummyRead a id wf
  have top : slotBelow s 0#8 = (s.dummyRead a).stackAddr := by simp [State.stackAddr, slotBelow_top]
  rw [top, ← State.dummyRead_params s a]
  exact ⟨State.push_peek_same read v, fun b h => (State.push_peek_other read v h).trans (s.dummyRead_peek a b)⟩

/-- Settles O43: one push or one pull after the dummy reads. -/
theorem stackResults : Obligations.StackResults := by
  intro s wf
  refine ⟨⟨s.pushA, rfl, s.pushA_cpu, ?pha⟩, ⟨s.pushP, rfl, s.pushP_cpu, ?php⟩,
    ⟨s.pullA, rfl, s.pullA_registers, ?pla⟩, ⟨s.pullP, rfl, s.pullP_registers, ?plp⟩⟩
  case pha => exact s.pushA_eq ▸ State.dummyRead_push_peek wf _ _
  case php => exact s.pushP_eq ▸ State.dummyRead_push_peek wf _ _
  case pla => exact (sameStore_reads.pullA (sameStore_reads.refl s)).sameMemory
  case plp => exact (sameStore_reads.pullP (sameStore_reads.refl s)).sameMemory

/-! ## JMP (R139) and the instructions that do nothing (R155, R178, R179) -/

/-- Settles O40: each form is its reads, then PC. -/
theorem jumpResults : Obligations.JumpResults := by
  intro s
  have fetched : s.fetch.2.fetch.2.cpu = { s.cpu with pc := s.cpu.pc + 2#16 } := s.fetchPair_cpu
  refine ⟨congrArg _ (a₁ := s.jumpAbs) ?_, congrArg _ (a₁ := s.jumpInd) ?_⟩
  · simp only [State.jumpAbs, State.fetchPair, State.setPc, fetched]
  · simp only [State.jumpInd, State.fetchPair, State.setPc, State.memRead_cpu, fetched]

/-- NOP and JAM read their operand where they have one, and else make the dummy read of class `implied` (R73). -/
theorem accessClass_of_noOperation {i : Instr} (h : i.mnemonic = .NOP ∨ i.mnemonic = .JAM) :
    i.accessClass = if i.mode = .imp then .implied else .read := by
  cases i <;> first
    | rfl
    | exact absurd h (by decide)

/-- Settles O45: in both classes the operation of the two mnemonics is to leave the state as it is. -/
theorem noOperationResults : Obligations.NoOperationResults := by
  intro i s hk
  have cls := accessClass_of_noOperation hk
  refine ⟨fun imp => registersBecome_of_op (cls.trans (if_pos imp)) (fun u => ?_) s,
    fun mem => readsThen_of_op (cls.trans (if_neg mem)) (fun v u => ?_) s⟩
  all_goals obtain hk | hk := hk <;> (rw [hk]; rfl)

end Sys2Proof.Machine
end

section
/-! SUPPORT. The undocumented shifts of memory that also change A, and the undocumented immediates (R157 to R159, R166
to R171). -/

namespace Sys2Proof.Machine

open Sys2Proof.Claims

variable {i : Instr}

/-! ## SLO, RLA and SRE (R157 to R159) -/

theorem opRla_eq (v : Byte) (u : State) :
    opRla v u = ((shifted .ROL v u.cpu.p.c).1, { u with cpu := { u.cpu with
      a := u.cpu.a &&& (shifted .ROL v u.cpu.p.c).1
      p := { nz u.cpu.p (u.cpu.a &&& (shifted .ROL v u.cpu.p.c).1) with c := v.getLsbD 7 } } }) := by
  rw [opRla, aluRol, flagByte_eq_setWidth]
  rfl

/-- Settles O37: each operation shifts the byte and writes A, N, Z and C; RLA rotates the old C in. -/
theorem combinedShiftResults : Obligations.CombinedShiftResults := by
  intro i s
  refine ⟨fun hk => ?slo, fun hk => ?rla, fun hk => ?sre⟩
  case rla =>
    exact modifies_of_op (accessClass_rmw_of_mnemonic (by simp [hk])) (fun v u _ => by rw [hk]; exact opRla_eq v u)
  all_goals
    exact modifies_of_op (accessClass_rmw_of_mnemonic (by simp [hk])) (fun _ _ _ => by rw [hk]; rfl)

/-! ## ARR, in binary and in decimal mode (R168) -/

/-- Six is added to the low digit without a carry into the high one. -/
theorem lowDigit_addSix (r : Byte) : (r &&& 0xF0#8) ||| ((r + 0x06#8) &&& 0x0F#8) =
    BitVec.ofNat 8 (r.toNat / 16 * 16 + (r.toNat + 6) % 16) := by
  have lowDigit : ((r + 0x06#8) &&& 0x0F#8).toNat = (r.toNat + 6) % 16 := by
    rw [toNat_and_lowDigit, BitVec.toNat_add]
    exact Nat.mod_mod_of_dvd _ (by decide)
  have disjoint := Nat.two_pow_add_eq_or_of_lt (i := 4) (Nat.mod_lt (r.toNat + 6) (by decide)) (r.toNat / 16)
  have small := r.isLt
  apply BitVec.eq_of_toNat_eq
  rw [BitVec.toNat_or, toNat_and_highDigit, lowDigit, BitVec.toNat_ofNat, Nat.mul_comm (r.toNat / 16), ← disjoint]
  omega

/-- The correction of the low digit, by the low digit of `A & m` and its bit 0. -/
theorem arrLowDigit_eq (t r : Byte) :
    (if 0x05 < (t &&& 0x0F#8).toNat + (t &&& 0x01#8).toNat then (r &&& 0xF0#8) ||| ((r + 0x06#8) &&& 0x0F#8) else r) =
      BitVec.ofNat 8 (if 5 < t.toNat % 16 + t.toNat % 2 then r.toNat / 16 * 16 + (r.toNat + 6) % 16 else r.toNat) := by
  have lowBit : (t &&& 0x01#8).toNat = t.toNat % 2 := Nat.and_two_pow_sub_one_eq_mod t.toNat 1
  rw [toNat_and_lowDigit, lowBit, lowDigit_addSix, apply_ite (BitVec.ofNat 8), BitVec.ofNat_toNat, BitVec.setWidth_eq]

/-- The decimal branch of ARR in digits: the high digit of `A & m` and its bit 4 decide C and the correction by 0x60. -/
theorem arrDecimal_eq (t r : Byte) (p : Flags) : arrDecimal t r p =
    let low := if 5 < t.toNat % 16 + t.toNat % 2 then r.toNat / 16 * 16 + (r.toNat + 6) % 16 else r.toNat
    let carry := decide (0x50 < t.toNat / 16 * 16 + t.toNat / 16 % 2 * 16)
    (BitVec.ofNat 8 (if carry then low + 0x60 else low),
      { p with n := p.c, z := decide (r = 0#8), v := t.getLsbD 6 != r.getLsbD 6, c := carry }) := by
  have bit4 : (t &&& 0x10#8).toNat = t.toNat / 16 % 2 * 16 := by
    rw [BitVec.toNat_and, show (0x10#8 : Byte).toNat = 2 ^ 4 from rfl, Nat.and_two_pow, Nat.toNat_testBit]
    rfl
  have overflow : (t ^^^ r).getLsbD 6 = (t.getLsbD 6 != r.getLsbD 6) := BitVec.getLsbD_xor
  simp only [arrDecimal, arrLowDigit_eq, toNat_and_highDigit, bit4, overflow, decide_eq_true_eq]
  by_cases carry : 0x50 < t.toNat / 16 * 16 + t.toNat / 16 % 2 * 16
  · rw [if_pos carry, if_pos carry, decide_eq_true carry, BitVec.ofNat_add]
    rfl
  · rw [if_neg carry, if_neg carry, decide_eq_false carry]
    rfl

theorem aluArr_of_binary {dec : Bool} {p : Flags} (h : ¬ (dec && p.d) = true) (a m : Byte) : aluArr dec a m p =
    let r := (shifted .ROR (a &&& m) p.c).1
    (r, { nz p r with c := r.getLsbD 6, v := r.getLsbD 6 != r.getLsbD 5 }) := by
  rw [aluArr, if_neg h, flagByte_eq_setWidth]
  rfl

theorem aluArr_of_decimal {dec : Bool} {p : Flags} (h : (dec && p.d) = true) (a m : Byte) :
    aluArr dec a m p = arrDecimal (a &&& m) (shifted .ROR (a &&& m) p.c).1 p := by
  rw [aluArr, if_pos h, flagByte_eq_setWidth]
  rfl

/-- The ALU's choice of a branch, by the registers the operation finds, is that of the claims. -/
theorem decimalAlu_and_d_iff (i : Instr) (s : State) : (s.decimalAlu && (past i s).p.d) = true ↔ inDecimal s := by
  simp [State.decimalAlu, past, inDecimal]

/-- ARR in either mode. -/
theorem arr_readsThen (hk : i.mnemonic = .ARR) (s : State) : readsThen i s (fun m c => { c with
    a := (aluArr s.decimalAlu c.a m c.p).1, p := (aluArr s.decimalAlu c.a m c.p).2 }) :=
  readsThen_of_paramOp (accessClass_read_of_mnemonic (by simp [hk]))
    (fun _ _ h => by rw [hk, ← State.decimalAlu_congr h]; rfl)

/-! ## The immediates, by mnemonic (R166 to R171) -/

/-- Settles O38: ARR by the branch its mode takes; each other operation writes its registers and flags in one way. -/
theorem undocumentedImmediateResults : Obligations.UndocumentedImmediateResults := by
  intro i s
  refine ⟨fun hk => ?anc, fun hk => ?alr, fun hk binary => ?arrBinary, fun hk => ?ane, fun hk => ?lxa, fun hk => ?sbx,
    fun hk decimal => ?arrDecimal⟩
  case arrBinary =>
    simpa only [readsThen, aluArr_of_binary (mt (decimalAlu_and_d_iff i s).mp binary)] using arr_readsThen hk s
  case arrDecimal =>
    simpa only [readsThen, aluArr_of_decimal ((decimalAlu_and_d_iff i s).mpr decimal), arrDecimal_eq]
      using arr_readsThen hk s
  all_goals
    exact readsThen_of_op (accessClass_read_of_mnemonic (by simp [hk])) (fun _ _ => by rw [hk]; rfl) s

end Sys2Proof.Machine
end

section
/-! SUPPORT. The scheduler's queue, the step, the hardware interrupt entry and the host's load (R185, R186, R192, R193,
R219). -/

namespace Sys2Proof.Machine

open Sys2Proof.Claims

/-! ## The queue (R33, R192 to R194) -/

/-- A well-formed queue is the sentinel alone, or an event that is no sentinel before a well-formed queue of events
none of which is due before it. -/
theorem queueWf_cons_iff {e : Event} {q : List Event} : queueWf (e :: q) = true ↔
    (e = Event.atEnd ∧ q = []) ∨ (e.kind ≠ .sentinel ∧ (∀ x ∈ q, e.tick ≤ x.tick) ∧ queueWf q = true) := by
  induction q generalizing e with
  | nil => simp [queueWf]
  | cons f q ih =>
    have pair : queueWf (e :: f :: q) = true ↔ e.kind ≠ .sentinel ∧ e.tick ≤ f.tick ∧ queueWf (f :: q) = true := by
      simp [queueWf, and_assoc]
    have later : queueWf (f :: q) = true → e.tick ≤ f.tick → ∀ x ∈ q, e.tick ≤ x.tick := by
      intro wf le x hx
      obtain ⟨-, rfl⟩ | ⟨-, below, -⟩ := ih.mp wf
      · cases hx
      · exact BitVec.le_trans le (below x hx)
    simp only [pair, List.forall_mem_cons, reduceCtorEq, and_false, false_or]
    exact ⟨fun ⟨kind, le, wf⟩ => ⟨kind, ⟨le, later wf le⟩, wf⟩, fun ⟨kind, ⟨le, _⟩, wf⟩ => ⟨kind, le, wf⟩⟩

/-- The queued events that a new one with the given tick goes behind (R192). -/
def Event.goesBefore (tick : Tick) (e : Event) : Bool := e.kind != .sentinel && decide (e.tick ≤ tick)

theorem Event.goesBefore_iff (h : Event) (tick : Tick) :
    h.goesBefore tick = true ↔ ¬(h.kind = .sentinel ∨ tick < h.tick) := by
  simp [Event.goesBefore]

/-- An event is inserted behind the longest run of events that go before it. -/
theorem insertEvent_eq (e : Event) (q : List Event) : insertEvent e q =
    q.takeWhile (Event.goesBefore e.tick) ++ e :: q.dropWhile (Event.goesBefore e.tick) := by
  induction q with
  | nil => rfl
  | cons h q ih =>
    unfold insertEvent
    split
    · next stop => simp [h.goesBefore_iff, stop]
    · next go => simp [h.goesBefore_iff, go, ih]

theorem mem_insertEvent {e x : Event} {q : List Event} : x ∈ insertEvent e q ↔ x = e ∨ x ∈ q := by
  rw [insertEvent_eq, List.mem_append, List.mem_cons, or_left_comm, ← List.mem_append, List.takeWhile_append_dropWhile]

/-- Inserting an event that is no sentinel keeps the queue well formed. -/
theorem insertEvent_wf {e : Event} {q : List Event} (kind : e.kind ≠ .sentinel) (wf : queueWf q = true) :
    queueWf (insertEvent e q) = true := by
  induction q with
  | nil => cases wf
  | cons h q ih =>
    obtain ⟨rfl, rfl⟩ | ⟨hkind, below, rest⟩ := queueWf_cons_iff.mp wf
    · have last : e.tick ≤ Event.atEnd.tick := Nat.le_pred_of_lt e.tick.isLt
      exact queueWf_cons_iff.mpr (.inr ⟨kind, List.forall_mem_singleton.mpr last, wf⟩)
    · unfold insertEvent
      split
      · next stop =>
        have before : e.tick ≤ h.tick := BitVec.le_of_lt (stop.resolve_left hkind)
        refine queueWf_cons_iff.mpr (.inr ⟨kind, List.forall_mem_cons.mpr ⟨before, fun x hx => ?_⟩, wf⟩)
        exact BitVec.le_trans before (below x hx)
      · next go =>
        have after : h.tick ≤ e.tick := BitVec.not_lt.mp fun lt => go (.inr lt)
        refine queueWf_cons_iff.mpr (.inr ⟨hkind, fun x hx => ?_, ih rest⟩)
        obtain rfl | hx := mem_insertEvent.mp hx
        · exact after
        · exact below x hx

/-- Settles O14: the event goes behind all that go before it, and the sentinel goes before none. -/
theorem queueInsertsInOrder : Obligations.QueueInsertsInOrder :=
  fun _ _ wf => ⟨insertEvent_wf nofun wf, insertEvent_eq _ _, rfl⟩

/-- What draining a well-formed queue takes off, and what it does to `need_reset`. -/
theorem drainEvents_of_wf (now : Tick) {q : List Event} (l : Latches) (wf : queueWf q = true) : drainEvents now q l =
    some (q.filter (fun e => e.kind == .sentinel || decide (now < e.tick)),
      { l with needReset := l.needReset || q.any (fun e => e.kind == .reset && decide (e.tick ≤ now)) }) := by
  induction q generalizing l with
  | nil => cases wf
  | cons e q ih =>
    obtain ⟨rfl, rfl⟩ | ⟨kind, below, rest⟩ := queueWf_cons_iff.mp wf
    · have noReset : (EventKind.sentinel == .reset) = false := rfl
      simp [drainEvents, Event.due, Event.atEnd, noReset]
    · have reset : e.kind = .reset := by
        cases h : e.kind
        case reset => rfl
        case sentinel => exact absurd h kind
      by_cases arrived : e.tick ≤ now
      · have later : ¬ now < e.tick := BitVec.not_lt.mpr arrived
        simp [drainEvents, Event.due, Latches.execEvent, reset, arrived, later, ih _ rest]
      · have first : now < e.tick := BitVec.not_le.mp arrived
        have later : ∀ x ∈ e :: q, now < x.tick :=
          List.forall_mem_cons.mpr ⟨first, fun x hx => Nat.lt_of_lt_of_le first (below x hx)⟩
        have all : (e :: q).filter (fun x => x.kind == .sentinel || decide (now < x.tick)) = e :: q :=
          List.filter_eq_self.mpr fun x hx => by simp [later x hx]
        have none : (e :: q).any (fun x => x.kind == .reset && decide (x.tick ≤ now)) = false :=
          List.any_eq_false.mpr fun x hx => by simp [later x hx]
        rw [all, none, Bool.or_false]
        simp [drainEvents, Event.due, arrived]

/-- Settles O15: draining stops at the first event that has not arrived, and none after it has. -/
theorem drainTakesArrivedEvents : Obligations.DrainTakesArrivedEvents := by
  intro s wf
  rw [State.handleEvents, drainEvents_of_wf s.cycles s.lat wf]

/-! ## The step (R180, R185, R218) -/

section Step

variable {s u : State} (drained : s.handleEvents = some u)
include drained

theorem step_of_needReset (reset : u.lat.needReset = true) : step s = .next u.resetSequence := by
  simp [step, drained, reset]

theorem step_of_interrupt (noReset : u.lat.needReset = false)
    (latched : u.lat.prevNeedNmi = true ∨ u.lat.prevIrq = true) : step s = .next u.interruptSequence := by
  simp [step, drained, noReset, latched]

theorem State.handleEvents_logged : u.logged = s.logged := by
  rw [State.handleEvents_eq drained]
  rfl

end Step

/-- Settles O6: the two tests of the step before its fetch. -/
theorem stepPriority : Obligations.StepPriority :=
  fun _ _ drained => ⟨step_of_needReset drained, step_of_interrupt drained⟩

@[simp] theorem State.peekStack_logged (s : State) : s.peekStack.logged = s.logged + 1 := by
  simp [State.peekStack]

/-- Five reads and the two of the vector (R220). -/
@[simp] theorem State.resetSequence_logged (s : State) : s.resetSequence.logged = s.logged + 7 := by
  have setI : ∀ t : State, (t.setI true).logged = t.logged := fun _ => rfl
  have start : ({ s with lat := { s.lat with needReset := false } } : State).logged = s.logged := rfl
  simp [State.resetSequence, setI, start]

/-- Two dummy reads and the entry (R186). -/
@[simp] theorem State.interruptSequence_logged (s : State) : s.interruptSequence.logged = s.logged + 7 := by
  simp [State.interruptSequence]

/-- A step from a drained queue ends in a next state at least two cycles on. -/
theorem step_of_drained {s u : State} (drained : s.handleEvents = some u) :
    ∃ t, step s = .next t ∧ s.logged + 2 ≤ t.logged := by
  rw [← State.handleEvents_logged drained]
  by_cases reset : u.lat.needReset = true
  · exact ⟨_, step_of_needReset drained reset, by simp⟩
  · rw [Bool.not_eq_true] at reset
    by_cases latched : u.lat.prevNeedNmi = true ∨ u.lat.prevIrq = true
    · exact ⟨_, step_of_interrupt drained reset latched, by simp⟩
    · simp only [not_or, Bool.not_eq_true] at latched
      obtain ⟨noNmi, noIrq⟩ := latched
      obtain ⟨t, runs, -⟩ := exec_runs (decodeOpcode u.fetch.1) u.fetch.2
      have more := exec_logged_lt runs
      rw [State.fetch_logged] at more
      exact ⟨t, (step_of_nothing_pending drained reset noNmi noIrq).trans runs, more⟩

/-- Settles O7: a well-formed queue drains, and whatever the step then runs completes. -/
theorem stepNeverStops : Obligations.StepNeverStops := by
  intro s wf
  obtain ⟨u, drained⟩ := State.handleEvents_isSome wf
  exact step_of_drained drained

/-! ## The hardware interrupt entry (R183, R186, R187, R189) -/

/-- The entry begins after two dummy reads. -/
theorem State.interruptSequence_eq (s : State) :
    s.interruptSequence = ((s.dummyRead s.cpu.pc).dummyRead s.cpu.pc).enterInterrupt false := by
  simp [State.interruptSequence]

theorem State.interruptStart_wf {s : State} (wf : s.wf = true) (a b : Word) : ((s.dummyRead a).dummyRead b).wf = true :=
  wf_closed.dummyRead b (wf_closed.dummyRead a id) wf

/-- An NMI pending before the pushes of an entry selects its vector. -/
theorem vectorOf_pushed_of_needNmi {s : State} (b : Bool) (pending : s.lat.needNmi = true) :
    vectorOf (pushed s b) = 0xFFFA#16 := by
  have kept : (pushed s b).lat.needNmi = true :=
    nmiKept_closed.push _ (nmiKept_closed.push _ (nmiKept_closed.push _ id)) pending
  rw [vectorOf, if_pos kept]

/-- Settles O21: the entry shared with BRK after two dummy reads, through all of which a pending NMI stays. -/
theorem interruptEntry : Obligations.InterruptEntry := by
  intro s wf
  refine ⟨s.interruptSequence_eq ▸ State.enterInterrupt_entered (State.interruptStart_wf wf _ _) false,
    s.interruptSequence_logged, fun pending => ?_, fun pending => ?_, fun idle => ?_⟩
  · exact vectorOf_pushed_of_needNmi _ (nmiKept_closed.dummyRead _ (nmiKept_closed.dummyRead _ id) pending)
  · exact if_pos pending
  · exact if_neg (by simp [idle])

/-- RTI as the first instruction after an entry finds the three bytes the entry pushed (R142). -/
theorem returnFromInterrupt_of_entered {s t : State} {b : Bool} (h : entered s b t) :
    t.fetch.2.returnFromInterrupt.cpu = s.cpu := by
  obtain ⟨⟨lo, hi, -, -, registers⟩, top, below, third, -, -⟩ := h
  have lowered : t.cpu.s = s.cpu.s - 3#8 := by rw [registers]
  have pcHigh : stackByte t 3#8 = hiByte s.cpu.pc := stackByte_of_slot lowered top
  have pcLow : stackByte t 2#8 = loByte s.cpu.pc := stackByte_of_slot lowered below
  have flags : stackByte t 1#8 = s.cpu.p.toByte b := stackByte_of_slot lowered third
  rw [State.returnFromInterrupt_registers, stackByte_fetch, stackByte_fetch, stackByte_fetch, pcHigh, pcLow, flags,
    joinBytes_hiByte_loByte, Flags.ofByte_toByte, State.fetch_cpu, registers]
  simp

/-- Settles O24: the entry leaves what `entered` says, and its two dummy reads changed no register. -/
theorem interruptThenRti : Obligations.InterruptThenRti := by
  intro s wf
  have h := State.enterInterrupt_entered (State.interruptStart_wf wf s.cpu.pc s.cpu.pc) false
  rw [← State.interruptSequence_eq] at h
  exact ⟨_, rfl, (returnFromInterrupt_of_entered h).trans (by simp)⟩

/-! ## The host's load (R219) -/

section Load

variable {s : State} (bus : s.params.bus = .flat) (a x y sp p : Byte) (pc : Word) (mem : List (Word × Byte))
include bus

/-- With `FLAT` a load is the registers and the bytes, written one after the other. -/
theorem State.loadState_flat : s.loadState a x y sp p pc mem = { s with
    cpu := ⟨a, x, y, sp, pc, Flags.ofByte p⟩
    ram := mem.foldl (fun m e => m.write e.1.toNat e.2) s.ram } := by
  rw [State.loadState, bus]

theorem State.peek_flat (b : Word) : s.peek b = some (s.ram.read b.toNat) := by
  rw [State.peek, bus]

/-- A byte loaded reads back as the last value given for its address, every other byte as before. -/
theorem State.loadState_peek (wf : s.wf = true) (b : Word) : (s.loadState a x y sp p pc mem).peek b =
    match mem.reverse.find? (fun e => e.1 == b) with
    | some e => some e.2
    | none => s.peek b := by
  obtain ⟨-, -, ram, -, -⟩ := (State.wf_iff s).mp wf
  rw [bus] at ram
  have sameAddress : (fun e : Word × Byte => e.1.toNat == b.toNat) = fun e => e.1 == b := by
    funext e
    rw [Bool.eq_iff_iff, beq_iff_eq, beq_iff_eq, BitVec.toNat_inj]
  rw [State.loadState_flat bus, State.peek_flat bus, State.peek_flat (by exact bus),
    Memory.read_foldl_write (fun e : Word × Byte => e.1.toNat) Prod.snd (fun e => e.1.isLt) mem ram, sameAddress]
  cases mem.reverse.find? (fun e => e.1 == b)
  case none => rfl
  case some => rfl

end Load

/-- Settles O59: with `FLAT` by the bytes written in turn; with `NES` the load is the identity. -/
theorem hostLoadsFlatOnly : Obligations.HostLoadsFlatOnly := by
  intro s a x y sp p pc mem wf
  refine ⟨fun nes => by rw [State.loadState, nes], fun flat => ?_⟩
  have loaded := State.loadState_flat flat a x y sp p pc mem
  refine ⟨by rw [loaded], State.loadState_peek flat a x y sp p pc mem wf, by rw [loaded]⟩

end Sys2Proof.Machine
end

section
/-! SUPPORT. The PPU's register reads, its memory and the arithmetic of the loopy registers (R36, R196 to R199, R201,
R206 to R209). -/

namespace Sys2Proof.Machine

/-! ## Register reads (R199, R201) -/

/-- DATA below the palette gives the buffered byte and refills the buffer from `v`. -/
theorem Ppu.dataRead_below_palette {p : Ppu} (c : Cart) (h : (p.v.setWidth 14 : PAddr).toNat < 0x3F00) :
    p.dataRead c = (p.readBuffer, { p with readBuffer := p.read c (p.v.setWidth 14), v := p.v + p.vIncrement }) := by
  unfold Ppu.dataRead
  rw [if_pos h]

/-- DATA in the palette gives its byte at once and refills the buffer from the nametable below. -/
theorem Ppu.dataRead_palette {p : Ppu} (c : Cart) (h : 0x3F00 ≤ (p.v.setWidth 14 : PAddr).toNat) :
    p.dataRead c = (p.read c (p.v.setWidth 14),
      { p with readBuffer := p.read c (p.v.setWidth 14 - 0x1000#14), v := p.v + p.vIncrement }) := by
  unfold Ppu.dataRead
  rw [if_neg (Nat.not_lt.mpr h)]

/-- Settles O55: DATA by where `v` stands; the other ports are their definition. -/
theorem ppuRegisterReads : Obligations.PpuRegisterReads := by
  intro p c
  refine ⟨rfl, rfl, fun r writeOnly => ?_, Ppu.dataRead_below_palette c, Ppu.dataRead_palette c⟩
  obtain rfl | rfl | rfl | rfl | rfl := writeOnly <;> rfl

/-! ## PPU memory (R196 to R198) -/

section Memory

variable {p : Ppu} (k : Cart) {a b : PAddr} (d : Byte)

theorem Ppu.write_pattern (h : a.toNat < 0x2000) : p.write k a d = p := by
  rw [Ppu.write, if_pos h]

/-- A palette byte written reads back at every address of its cell. -/
theorem Ppu.read_write_palette (wf : p.wf = true) (ha : 0x3F00 ≤ a.toNat) (hb : 0x3F00 ≤ b.toNat)
    (cell : palIndex a.toNat = palIndex b.toNat) : (p.write k a d).read k b = d := by
  obtain ⟨-, pal, -, -, -, -⟩ := p.wf_iff.mp wf
  rw [Ppu.write, if_neg (by omega), if_neg (by omega), Ppu.read, if_neg (by omega), if_neg (by omega)]
  rw [Memory.read_write d _ pal, if_pos cell.symm]

/-- So does a nametable byte. -/
theorem Ppu.read_write_nametable (wf : p.wf = true) (ha : 0x2000 ≤ a.toNat) (ha' : a.toNat < 0x3F00)
    (hb : 0x2000 ≤ b.toNat) (hb' : b.toNat < 0x3F00)
    (cell : ntIndex k.mirroring a.toNat = ntIndex k.mirroring b.toNat) : (p.write k a d).read k b = d := by
  obtain ⟨nt, -, -, -, -, -⟩ := p.wf_iff.mp wf
  rw [Ppu.write, if_neg (by omega), if_pos ha', Ppu.read, if_neg (by omega), if_pos hb']
  rw [Memory.read_write d _ nt, if_pos cell.symm]

end Memory

/-- Settles O53: a read after a write in each memory; the mirrors named are pairs of one cell. -/
theorem ppuMemoryMirrors : Obligations.PpuMemoryMirrors := by
  intro p k a b d wf
  refine ⟨Ppu.write_pattern k d, Ppu.read_write_palette k d wf, Ppu.read_write_nametable k d wf,
    Ppu.read_write_palette k d wf (by decide) (by decide) (by decide),
    Ppu.read_write_palette k d wf (by decide) (by decide) (by decide), fun horizontal => ?_, fun vertical => ?_⟩
  · rw [horizontal]
    decide
  · rw [vertical]
    decide

/-! ## The loopy registers (R36, R206 to R209) -/

/-- A loopy register is put together from its fields. -/
theorem packV_fields_self (v : VAddr) : packV (fineY v) (ntY v) (ntX v) (coarseY v) (coarseX v) = v := by
  apply BitVec.eq_of_getLsbD_eq
  intro k hk
  rw [packV_getLsbD]
  interval_cases k <;> simp [fineY, ntY, ntX, coarseY, coarseX]

/-- The horizontal bits are 4:0 and 10. -/
theorem reloadX_eq (v t : VAddr) : reloadX v t = (v &&& 0x7BE0#15) ||| (t &&& 0x041F#15) := by
  apply BitVec.eq_of_getLsbD_eq
  intro k hk
  rw [reloadX, packV_getLsbD]
  interval_cases k <;> simp [fineY, ntY, ntX, coarseY, coarseX]

/-- The vertical bits are the others. -/
theorem reloadY_eq (v t : VAddr) : reloadY v t = (v &&& 0x041F#15) ||| (t &&& 0x7BE0#15) := by
  apply BitVec.eq_of_getLsbD_eq
  intro k hk
  rw [reloadY, packV_getLsbD]
  interval_cases k <;> simp [fineY, ntY, ntX, coarseY, coarseX]

theorem toNat_append_eq_add {m n : Nat} (hi : BitVec m) (lo : BitVec n) :
    (hi ++ lo).toNat = hi.toNat * 2 ^ n + lo.toNat := by
  rw [BitVec.toNat_append, ← Nat.shiftLeft_add_eq_or_of_lt lo.isLt, Nat.shiftLeft_eq]

/-- A loopy register as a number, by its fields. -/
theorem toNat_eq_fields (v : VAddr) : v.toNat = (fineY v).toNat * 4096 + (ntY v).toNat * 2048 +
    (ntX v).toNat * 1024 + (coarseY v).toNat * 32 + (coarseX v).toNat := by
  conv_lhs => rw [← packV_fields_self v]
  simp only [packV, toNat_append_eq_add]
  omega

/-- Below 31 a step of coarse X is a step of `v`. -/
theorem incX_of_ne {v : VAddr} (h : coarseX v ≠ 31#5) : incX v = v + 1#15 := by
  rw [incX, if_neg h]
  apply BitVec.eq_of_toNat_eq
  rw [BitVec.toNat_add, toNat_eq_fields (packV _ _ _ _ _), toNat_eq_fields v]
  simp only [packV_fields]
  have notTop : (coarseX v).toNat ≠ 31 := fun e => h (BitVec.eq_of_toNat_eq e)
  bv_omega

/-- Below 7 a step of fine Y adds one in bit 12. -/
theorem incY_of_ne {v : VAddr} (h : fineY v ≠ 7#3) : incY v = v + 0x1000#15 := by
  rw [incY, if_pos h]
  apply BitVec.eq_of_toNat_eq
  rw [BitVec.toNat_add, toNat_eq_fields (packV _ _ _ _ _), toNat_eq_fields v]
  simp only [packV_fields]
  have notTop : (fineY v).toNat ≠ 7 := fun e => h (BitVec.eq_of_toNat_eq e)
  bv_omega

/-- From 7 fine Y carries into coarse Y, which from 29 carries into the nametable and from 31 does not. -/
theorem incY_of_eq {v : VAddr} (h : fineY v = 7#3) : incY v = packV 0#3
    (if coarseY v = 29#5 then ~~~(ntY v) else ntY v) (ntX v)
    (if coarseY v = 29#5 then 0#5 else coarseY v + 1#5) (coarseX v) := by
  rw [incY, if_neg (not_not.mpr h)]
  split
  · rfl
  · split
    · next top => rw [top]; rfl
    · rfl

end Sys2Proof.Machine
end

section
/-! SUPPORT. One dot of the PPU as equations: the pipeline, the scroll counters, vblank, the pixel and the sink (R202 to
R212). -/

namespace Sys2Proof.Machine

open Sys2Proof.Claims

/-! ## The actions of a dot, in order (R203) -/

theorem when_setV (b : Bool) (g : Ppu → VAddr) (p : Ppu) :
    when b (fun q => { q with v := g q }) p = { p with v := if b then g p else p.v } := by
  cases b <;> rfl

theorem when_renderPixel (b : Bool) (c : Cart) (x y : Nat) (p : Ppu) :
    when b (fun q => q.renderPixel c x y) p =
      { p with frame := if b then p.frame.write (y * 256 + x) (p.read c p.pixelAddr) else p.frame } := by
  cases b <;> rfl

/-- The shift and the reload of dot `d` (R205). -/
def Ppu.shiftActions (p : Ppu) (d : Nat) : Ppu := when (reloadDot d) Ppu.reload (when (shiftDot d) Ppu.shift p)

/-- The first actions of a dot: shift, reload and fetch (R203 to R205). -/
def Ppu.pipelineActions (p : Ppu) (c : Cart) (d : Nat) : Ppu :=
  when (decide (1 ≤ d ∧ d ≤ 256 ∨ 321 ≤ d ∧ d ≤ 337)) (fun q => q.fetchPhase c (d % 8)) (p.shiftActions d)

/-- `v` after the actions of dot `d` that follow the fetch. -/
def scrollAfterFetch (d y : Nat) (v t : VAddr) : VAddr :=
  let v := if d = 256 then incY v else v
  let v := if d = 257 then reloadX v t else v
  if y = 261 ∧ 280 ≤ d ∧ d ≤ 304 then reloadY v t else v

/-- The actions of a dot: the pipeline's, then `v`, then the pixel. -/
theorem Ppu.renderActions_eq (p : Ppu) (c : Cart) (d y : Nat) : p.renderActions c d y =
    let q := p.pipelineActions c d
    { q with
      v := scrollAfterFetch d y q.v q.t
      frame := if y < 240 ∧ 1 ≤ d ∧ d ≤ 256 then q.frame.write (y * 256 + (d - 1)) (q.read c q.pixelAddr)
        else q.frame } := by
  have windows : p.pipelineActions c d =
      when ((1 ≤ d && d ≤ 256) || (321 ≤ d && d ≤ 337)) (fun q => q.fetchPhase c (d % 8))
        (when (((9 ≤ d && d ≤ 257) || (321 ≤ d && d ≤ 337)) && d % 8 == 1) Ppu.reload
          (when ((2 ≤ d && d ≤ 257) || (322 ≤ d && d ≤ 337)) Ppu.shift p)) := by
    simp only [Ppu.pipelineActions, Ppu.shiftActions, shiftDot, reloadDot, Bool.decide_or, Bool.decide_and]
    rfl
  simp only [Ppu.renderActions, ← windows, when_setV, when_renderPixel, scrollAfterFetch, Bool.and_eq_true,
    decide_eq_true_eq, beq_iff_eq, and_assoc]
  rfl

/-! ## The shift and the reload (R205) -/

/-- The reload keeps the high byte and takes the low one from the latch. -/
theorem reload_eq_joinBytes (r : Word) (latch : Byte) :
    (r &&& 0xFF00#16) ||| zext16 latch = joinBytes (hiByte r) latch := by
  apply BitVec.eq_of_getLsbD_eq
  intro k hk
  rw [joinBytes, hiByte, zext16]
  refine Eq.trans ?_ BitVec.getLsbD_append.symm
  interval_cases k <;> simp

/-- The shift registers and `attrFeed` after the shift and the reload of dot `d`. -/
theorem Ppu.shiftActions_eq (p : Ppu) (d : Nat) : p.shiftActions d = { p with
    bgPatLo := patternAfter d p.bgPatLo p.ptLoLatch
    bgPatHi := patternAfter d p.bgPatHi p.ptHiLatch
    bgAttrLo := attributeAfter d p.bgAttrLo (p.attrFeed.getLsbD 0)
    bgAttrHi := attributeAfter d p.bgAttrHi (p.attrFeed.getLsbD 1)
    attrFeed := if reloadDot d then p.atLatch else p.attrFeed } := by
  unfold Ppu.shiftActions patternAfter attributeAfter
  cases shiftDot d <;> cases reloadDot d <;>
    simp [when, Ppu.shift, Ppu.reload, reload_eq_joinBytes, flagByte_eq_setWidth]

/-! ## The fetches and their addresses (R204) -/

theorem Ppu.ntAddr_eq (p : Ppu) : p.ntAddr = tileAddr p.v := by
  calc p.ntAddr = 0b10#2 ++ p.v.setWidth 12 := by
        apply BitVec.eq_of_getLsbD_eq
        intro k hk
        rw [BitVec.getLsbD_append, Ppu.ntAddr]
        interval_cases k <;> simp
    _ = tileAddr p.v := by
        apply BitVec.eq_of_toNat_eq
        simp only [toNat_append_eq_add, tileAddr, BitVec.toNat_setWidth, BitVec.toNat_ofNat]
        omega

/-- The address read at fetch phase 3, field by field: the nametable, three bits of coarse Y and three of coarse X. -/
theorem Ppu.attrAddr_eq (p : Ppu) : p.attrAddr = attributeAddr p.v := by
  calc p.attrAddr = 0b10#2 ++ ntY p.v ++ ntX p.v ++ 0b1111#4 ++ (coarseY p.v).extractLsb' 2 3 ++
        (coarseX p.v).extractLsb' 2 3 := by
        apply BitVec.eq_of_getLsbD_eq
        intro k hk
        refine Eq.trans ?_ BitVec.getLsbD_append.symm
        simp only [BitVec.getLsbD_append, Ppu.attrAddr]
        interval_cases k <;> simp [ntX, ntY, coarseX, coarseY]
    _ = attributeAddr p.v := by
        apply BitVec.eq_of_toNat_eq
        simp only [toNat_append_eq_add, attributeAddr, BitVec.extractLsb'_toNat, BitVec.toNat_ofNat,
          Nat.shiftRight_eq_div_pow]
        omega

theorem Ppu.attrShift_eq (p : Ppu) :
    p.attrShift = (coarseY p.v).toNat / 2 % 2 * 4 + (coarseX p.v).toNat / 2 % 2 * 2 := by
  have bits : ((p.v >>> 4) &&& 0x04#15) ||| (p.v &&& 0x02#15) =
      0#12 ++ (coarseY p.v).extractLsb' 1 1 ++ (coarseX p.v).extractLsb' 1 1 ++ 0#1 := by
    apply BitVec.eq_of_getLsbD_eq
    intro k hk
    refine Eq.trans ?_ BitVec.getLsbD_append.symm
    simp only [BitVec.getLsbD_append]
    interval_cases k <;> simp [coarseX, coarseY]
  rw [Ppu.attrShift, bits]
  simp only [toNat_append_eq_add, BitVec.extractLsb'_toNat, BitVec.toNat_ofNat, Nat.shiftRight_eq_div_pow]
  omega

theorem Ppu.patternAddr_eq (p : Ppu) : p.patternAddr = BitVec.ofNat 14 (planeAddr p) := by
  have table : (if p.ctrl.getLsbD 4 then 0x1000#14 else 0#14) =
      BitVec.ofNat 14 ((p.ctrl.getLsbD 4).toNat * 0x1000) := by
    cases p.ctrl.getLsbD 4 <;> rfl
  rw [Ppu.patternAddr, planeAddr, table]
  have bit := Bool.toNat_le (p.ctrl.getLsbD 4)
  bv_omega

/-- A fetch phase as one equation (R204). -/
theorem Ppu.fetchPhase_eq (p : Ppu) (c : Cart) (k : Nat) : p.fetchPhase c k = { p with
    ntLatch := if k = 1 then p.read c (tileAddr p.v) else p.ntLatch
    atLatch := if k = 3 then attributeBits p.v (p.read c (attributeAddr p.v)) else p.atLatch
    ptLoLatch := if k = 5 then p.read c (BitVec.ofNat 14 (planeAddr p)) else p.ptLoLatch
    ptHiLatch := if k = 7 then p.read c (BitVec.ofNat 14 (planeAddr p + 8)) else p.ptHiLatch
    v := if k = 0 then incX p.v else p.v } := by
  unfold Ppu.fetchPhase attributeBits
  rw [Ppu.ntAddr_eq, Ppu.attrAddr_eq, Ppu.attrShift_eq, Ppu.patternAddr_eq, BitVec.ofNat_add]
  split <;> simp_all

/-- The pipeline's actions of dot `d` as one equation: what is shifted, reloaded and fetched. -/
theorem Ppu.pipelineActions_eq (p : Ppu) (c : Cart) (d : Nat) : p.pipelineActions c d = { p with
    bgPatLo := patternAfter d p.bgPatLo p.ptLoLatch
    bgPatHi := patternAfter d p.bgPatHi p.ptHiLatch
    bgAttrLo := attributeAfter d p.bgAttrLo (p.attrFeed.getLsbD 0)
    bgAttrHi := attributeAfter d p.bgAttrHi (p.attrFeed.getLsbD 1)
    attrFeed := if reloadDot d then p.atLatch else p.attrFeed
    ntLatch := if fetchDot 1 d then p.read c (tileAddr p.v) else p.ntLatch
    atLatch := if fetchDot 3 d then attributeBits p.v (p.read c (attributeAddr p.v)) else p.atLatch
    ptLoLatch := if fetchDot 5 d then p.read c (BitVec.ofNat 14 (planeAddr p)) else p.ptLoLatch
    ptHiLatch := if fetchDot 7 d then p.read c (BitVec.ofNat 14 (planeAddr p + 8)) else p.ptHiLatch
    v := if fetchDot 0 d then incX p.v else p.v } := by
  unfold Ppu.pipelineActions when fetchDot
  rw [Ppu.shiftActions_eq]
  by_cases window : 1 ≤ d ∧ d ≤ 256 ∨ 321 ≤ d ∧ d ≤ 337
  · simp only [window, Ppu.fetchPhase_eq, decide_true, true_and, if_true, decide_eq_true_eq]
    rfl
  · simp only [window, decide_false, false_and, Bool.false_eq_true, if_false]

/-! ## One dot as a whole (R203) -/

/-- The actions of a dot, before the PPU moves to the next. -/
def Ppu.dotActions (p : Ppu) (c : Cart) : Ppu :=
  if p.fetchLine && p.rendering then p.vblankActions.renderActions c p.dot.val p.scanline.val else p.vblankActions

theorem Ppu.tick_eq (p : Ppu) (c : Cart) : p.tick c = (p.dotActions c).advance := rfl

/-- Vblank is STATUS and the NMI output only (R211). -/
theorem Ppu.vblankActions_eq (p : Ppu) : p.vblankActions =
    { p with status := p.vblankActions.status, nmiOut := p.vblankActions.nmiOut } := by
  unfold Ppu.vblankActions
  (repeat' split) <;> rfl

/-- Moving on changes the place in the frame and what the sink has received only (R212). -/
theorem Ppu.advance_eq (p : Ppu) : p.advance = { p with
    dot := p.advance.dot, scanline := p.advance.scanline, published := p.advance.published
    sinkFrame := p.advance.sinkFrame } := by
  unfold Ppu.advance when
  (repeat' split) <;> rfl

theorem Ppu.rendered_or_idle (p : Ppu) :
    (p.rendering = true ∧ p.fetchLine = true) ∨ (p.rendering = false ∨ p.fetchLine = false) := by
  cases p.rendering <;> cases p.fetchLine <;> simp

/-- Without rendering, or between the fetch lines, a dot is vblank and the move. -/
theorem Ppu.dotActions_idle {p : Ppu} (c : Cart) (h : p.rendering = false ∨ p.fetchLine = false) :
    p.dotActions c = { p with status := p.vblankActions.status, nmiOut := p.vblankActions.nmiOut } := by
  rw [Ppu.dotActions, if_neg, ← Ppu.vblankActions_eq]
  rcases h with h | h <;> simp [h]

/-- With rendering on a fetch line it is also the actions of its place. -/
theorem Ppu.dotActions_rendered {p : Ppu} (c : Cart) (rendering : p.rendering = true) (line : p.fetchLine = true) :
    p.dotActions c = { p.renderActions c p.dot.val p.scanline.val with
      status := p.vblankActions.status, nmiOut := p.vblankActions.nmiOut } := by
  rw [Ppu.dotActions, if_pos (by simp [rendering, line]), Ppu.vblankActions_eq]
  simp only [Ppu.renderActions_eq, Ppu.pipelineActions_eq]
  rfl

/-- No action of a dot moves it or reaches the sink, and STATUS and the NMI output are left to vblank. -/
theorem Ppu.dotActions_keeps (p : Ppu) (c : Cart) :
    (p.dotActions c).dot = p.dot ∧ (p.dotActions c).scanline = p.scanline ∧
    (p.dotActions c).published = p.published ∧ (p.dotActions c).sinkFrame = p.sinkFrame ∧
    (p.dotActions c).status = p.vblankActions.status ∧ (p.dotActions c).nmiOut = p.vblankActions.nmiOut := by
  obtain ⟨rendering, line⟩ | idle := p.rendered_or_idle
  · rw [Ppu.dotActions_rendered c rendering line, Ppu.renderActions_eq, Ppu.pipelineActions_eq]
    exact ⟨rfl, rfl, rfl, rfl, rfl, rfl⟩
  · rw [Ppu.dotActions_idle c idle]
    exact ⟨rfl, rfl, rfl, rfl, rfl, rfl⟩

/-! ## The scroll counters over a dot (R206 to R209) -/

section Scroll

variable {p : Ppu} (c : Cart)

theorem Ppu.tick_v_idle (h : p.rendering = false ∨ p.fetchLine = false) : (p.tick c).v = p.v := by
  rw [Ppu.tick_eq, Ppu.advance_eq, Ppu.dotActions_idle c h]

theorem Ppu.tick_v_rendered (rendering : p.rendering = true) (line : p.fetchLine = true) : (p.tick c).v =
    scrollAfterFetch p.dot.val p.scanline.val (if fetchDot 0 p.dot.val then incX p.v else p.v) p.t := by
  rw [Ppu.tick_eq, Ppu.advance_eq, Ppu.dotActions_rendered c rendering line, Ppu.renderActions_eq,
    Ppu.pipelineActions_eq]

end Scroll

/-- Off the dots 256 and 257 and the vertical reload nothing follows the fetch. -/
theorem scrollAfterFetch_of_ne {d y : Nat} (v t : VAddr) (notY : d ≠ 256) (notX : d ≠ 257)
    (noReload : ¬(y = 261 ∧ 280 ≤ d ∧ d ≤ 304)) : scrollAfterFetch d y v t = v := by
  simp only [scrollAfterFetch, notY, notX, noReload, if_false]

/-- Settles O52: the increments by their fields; a dot by whether it fetches phase 0 and by what follows the fetch. -/
theorem scrollRules : Obligations.ScrollRules := by
  refine ⟨fun v t => ⟨fun top => if_pos top, incX_of_ne, incY_of_ne, fun top => ?_, reloadY_eq v t,
    (packV_fields_self v).symm⟩, fun p c rendering line => ?_⟩
  · rw [incY_of_eq top]
    simp only [packV_fields, and_self]
  · rw [Ppu.tick_v_rendered c rendering line]
    refine ⟨fun last => ?_, fun tile window => ?_, fun preRender low high => ?_⟩
    · have fetch : fetchDot 0 256 = true := by decide
      rw [last, if_pos fetch, scrollAfterFetch, if_neg (by omega)]
      rfl
    · have fetch : fetchDot 0 p.dot.val = true := by
        simp only [fetchDot, decide_eq_true_eq]
        omega
      rw [scrollAfterFetch_of_ne _ _ (by omega) (by omega) (by omega), if_pos fetch]
    · have noFetch : ¬ fetchDot 0 p.dot.val = true := by
        simp only [fetchDot, decide_eq_true_eq]
        omega
      rw [if_neg noFetch, scrollAfterFetch, if_pos ⟨preRender, low, high⟩, if_neg (by omega), if_neg (by omega)]

/-! ## Vblank and the NMI output (R211) -/

theorem Ppu.tick_status_nmiOut (p : Ppu) (c : Cart) :
    (p.tick c).status = p.vblankActions.status ∧ (p.tick c).nmiOut = p.vblankActions.nmiOut := by
  obtain ⟨-, -, -, -, status, nmiOut⟩ := p.dotActions_keeps c
  rw [Ppu.tick_eq, Ppu.advance_eq]
  exact ⟨status, nmiOut⟩

theorem Ppu.readRegister_nmiOut (p : Ppu) (c : Cart) (r : Nat) : (p.readRegister c r).2.nmiOut = p.nmiOut := by
  unfold Ppu.readRegister Ppu.dataRead
  dsimp only
  (repeat' split) <;> rfl

theorem Ppu.writeRegister_nmiOut (p : Ppu) (c : Cart) (r : Nat) (d : Byte) :
    (p.writeRegister c r d).nmiOut = p.nmiOut := by
  unfold Ppu.writeRegister Ppu.scrollWrite Ppu.addrWrite Ppu.dataWrite Ppu.write
  dsimp only
  (repeat' split) <;> rfl

/-- Settles O54: a dot leaves STATUS and the output to vblank, whose actions are those of two dots. -/
theorem vblankAndNmi : Obligations.VblankAndNmi := by
  intro p c
  obtain ⟨status, nmiOut⟩ := p.tick_status_nmiOut c
  rw [status, nmiOut]
  refine ⟨fun sets => ?_, fun clears => ?_, fun notSet notClear => ?_,
    fun r d => ⟨p.readRegister_nmiOut c r, p.writeRegister_nmiOut c r d⟩⟩
  · rw [Ppu.vblankActions, if_pos sets.2, if_pos sets.1]
    exact ⟨rfl, rfl⟩
  · rw [Ppu.vblankActions, if_pos clears.2, if_neg (by omega), if_pos clears.1]
    exact ⟨rfl, rfl⟩
  · have other : p.vblankActions = p := by
      unfold Ppu.vblankActions
      split
      · rw [if_neg (by omega), if_neg (by omega)]
      · rfl
    rw [other]
    exact ⟨rfl, rfl⟩

/-! ## The frame of a dot (R202, R203, R208, R210, R212) -/

/-- The sink receives the frame on the move into scanline 261 and on no other. -/
theorem Ppu.advance_sink (p : Ppu) :
    (p.framePos + 1 = 261 * 341 → p.advance.published = p.published + 1 ∧ p.advance.sinkFrame = p.frame) ∧
    (p.framePos + 1 ≠ 261 * 341 → p.advance.published = p.published ∧ p.advance.sinkFrame = p.sinkFrame) := by
  have small := p.dot.isLt
  unfold Ppu.framePos Ppu.advance
  split
  · next last =>
    by_cases line : p.scanline.val = 260
    · rw [line]
      exact ⟨fun _ => ⟨rfl, rfl⟩, fun other => absurd other (by omega)⟩
    · rw [beq_false_of_ne line]
      exact ⟨fun entered => absurd entered (by omega), fun _ => ⟨rfl, rfl⟩⟩
  · next notLast =>
    exact ⟨fun entered => absurd entered (by omega), fun _ => ⟨rfl, rfl⟩⟩

/-- The frame buffer after a dot without rendering, or between the fetch lines. -/
theorem Ppu.tick_frame_idle {p : Ppu} (c : Cart) (h : p.rendering = false ∨ p.fetchLine = false) :
    (p.tick c).frame = p.frame := by
  rw [Ppu.tick_eq, Ppu.advance_eq, Ppu.dotActions_idle c h]

/-- The frame buffer after a dot with rendering on a fetch line: a visible dot writes its pixel. -/
theorem Ppu.tick_frame_rendered {p : Ppu} (c : Cart) (rendering : p.rendering = true) (line : p.fetchLine = true) :
    (p.tick c).frame =
      if p.scanline.val < 240 ∧ 1 ≤ p.dot.val ∧ p.dot.val ≤ 256 then
        p.frame.write (p.scanline.val * 256 + (p.dot.val - 1)) ((p.tick c).read c (p.tick c).pixelAddr)
      else p.frame := by
  rw [Ppu.tick_eq, Ppu.advance_eq, Ppu.dotActions_rendered c rendering line, Ppu.renderActions_eq,
    Ppu.pipelineActions_eq]
  rfl

/-- A dot changes no pixel but that of its place, and that one only if it is visible and rendering is enabled. -/
theorem Ppu.tick_changed_pixel {p : Ppu} (wf : p.wf = true) (c : Cart) {n : Nat}
    (changed : (p.tick c).frame.read n ≠ p.frame.read n) : p.rendering = true ∧ p.scanline.val < 240 ∧
      1 ≤ p.dot.val ∧ p.dot.val ≤ 256 ∧ n = p.scanline.val * 256 + (p.dot.val - 1) := by
  obtain ⟨-, -, -, frame, -, -⟩ := p.wf_iff.mp wf
  obtain ⟨rendering, line⟩ | idle := p.rendered_or_idle
  · rw [Ppu.tick_frame_rendered c rendering line] at changed
    split at changed
    · next visible =>
      obtain ⟨row, first, last⟩ := visible
      refine ⟨rendering, row, first, last, ?_⟩
      by_contra other
      rw [Memory.read_write _ _ frame, if_neg other] at changed
      exact changed rfl
    · exact absurd rfl changed
  · rw [Ppu.tick_frame_idle c idle] at changed
    exact absurd rfl changed

/-- Settles O57: the ports by `tick_samePort`, the place by `tick_framePos`, then `v`, the pixel and the sink. -/
theorem dotFrame : Obligations.DotFrame := by
  intro p c wf
  obtain ⟨nt, pal, oam, ctrl, mask, t, fineX, w, oamAddr, readBuffer⟩ := p.tick_samePort c
  obtain ⟨dot, scanline, published, sinkFrame, -, -⟩ := p.dotActions_keeps c
  have place : (p.dotActions c).framePos = p.framePos := Ppu.samePos_framePos ⟨dot, scanline⟩
  have sink := (p.dotActions c).advance_sink
  rw [place, published, sinkFrame] at sink
  have frame : (p.dotActions c).frame = (p.tick c).frame := by rw [Ppu.tick_eq, Ppu.advance_eq]
  rw [frame] at sink
  refine ⟨oam, nt, pal, ctrl, mask, t, fineX, w, oamAddr, readBuffer, p.tick_framePos c, Ppu.tick_v_idle c,
    fun rendering line reload => ?_, fun noFetch notX noReload => ?_, fun n => Ppu.tick_changed_pixel wf c,
    sink.1, sink.2⟩
  · have fetch : ¬ fetchDot 0 257 = true := by decide
    rw [Ppu.tick_v_rendered c rendering line, reload, if_neg fetch, scrollAfterFetch, if_neg (by omega)]
    exact reloadX_eq p.v p.t
  · obtain ⟨rendering, line⟩ | idle := p.rendered_or_idle
    · have fetch : ¬ fetchDot 0 p.dot.val = true := by
        simp only [fetchDot, decide_eq_true_eq]
        omega
      rw [Ppu.tick_v_rendered c rendering line, if_neg fetch, scrollAfterFetch_of_ne _ _ (by omega) notX noReload]
    · exact Ppu.tick_v_idle c idle

/-! ## The background pipeline (R203 to R205, R210) -/

/-- In the background palettes the palette fold leaves an index as it is (R198). -/
theorem Ppu.read_background_palette (p : Ppu) (c : Cart) {i : Nat} (h : i < 16) :
    p.read c (BitVec.ofNat 14 (0x3F00 + i)) = p.pal.read i := by
  have address : (BitVec.ofNat 14 (0x3F00 + i)).toNat = 0x3F00 + i := by
    rw [BitVec.toNat_ofNat]
    omega
  have fold : palIndex (0x3F00 + i) = i := by
    interval_cases i <;> rfl
  rw [Ppu.read, address, if_neg (by omega), if_neg (by omega), fold]

/-- The PPU reads at the address of the pixel the palette byte the registers select (R210). -/
theorem Ppu.read_pixelAddr (p : Ppu) (c : Cart) : p.read c p.pixelAddr = pixelByte p := by
  have bits : ∀ hi lo : Bool, hi.toNat * 2 + lo.toNat < 4 := by decide
  have value : p.pixelValue < 4 := bits _ _
  have palette : p.paletteIndex < 4 := bits _ _
  have select : pixelByte p =
      if p.pixelValue = 0 then p.pal.read 0 else p.pal.read (p.paletteIndex * 4 + p.pixelValue) := rfl
  rw [select, Ppu.pixelAddr]
  split
  · exact p.read_background_palette c (i := 0) (by decide)
  · rw [Nat.add_assoc]
    exact p.read_background_palette c (by omega)

/-- The latches and the shift registers after a dot with rendering on a fetch line. -/
theorem Ppu.tick_pipeline_rendered {p : Ppu} (c : Cart) (rendering : p.rendering = true) (line : p.fetchLine = true) :
    (p.pipelineActions c p.dot.val).samePipeline (p.tick c) := by
  rw [Ppu.tick_eq, Ppu.advance_eq, Ppu.dotActions_rendered c rendering line, Ppu.renderActions_eq]
  exact ⟨rfl, rfl, rfl, rfl, rfl, rfl, rfl, rfl, rfl⟩

/-- Settles O58: the equations of shift, reload and fetch field by field, and the pixel as the byte at its address. -/
theorem backgroundPipeline : Obligations.BackgroundPipeline := by
  intro p c wf
  obtain ⟨-, -, -, frame, -, -⟩ := p.wf_iff.mp wf
  refine ⟨fun rendering line => ?rendered, fun idle => ?idle, fun x y => ⟨?pixel, fun k other => ?others⟩⟩
  case rendered =>
    have pixel : p.scanline.val < 240 → 1 ≤ p.dot.val → p.dot.val ≤ 256 →
        (p.tick c).frame.read (p.scanline.val * 256 + (p.dot.val - 1)) = pixelByte (p.tick c) := by
      intro row first last
      rw [Ppu.tick_frame_rendered c rendering line, if_pos ⟨row, first, last⟩, Memory.read_write _ _ frame, if_pos rfl,
        Ppu.read_pixelAddr]
    have fields := Ppu.tick_pipeline_rendered c rendering line
    rw [Ppu.pipelineActions_eq] at fields
    obtain ⟨patLo, patHi, attrLo, attrHi, feed, nt, attr, lo, hi⟩ := fields
    exact ⟨patLo, patHi, attrLo, attrHi, feed, nt, attr, lo, hi, pixel⟩
  case idle =>
    rw [Ppu.tick_eq, Ppu.advance_eq, Ppu.dotActions_idle c idle]
    exact ⟨rfl, rfl, rfl, rfl, rfl, rfl, rfl, rfl, rfl, rfl⟩
  case pixel =>
    rw [Ppu.renderPixel, Memory.read_write _ _ frame, if_pos rfl, Ppu.read_pixelAddr]
  case others =>
    rw [Ppu.renderPixel, Memory.read_write _ _ frame, if_neg other]

end Sys2Proof.Machine
end

section
/-! SUPPORT. The reset sequence from any state, and the first step of the NES machine (R55, R220, R221). -/

namespace Sys2Proof.Machine

open Sys2Proof.Claims

/-! ## The reset sequence (R220) -/

section Parts

variable (s : State)

@[simp] theorem State.setI_cpu (b : Bool) : (s.setI b).cpu = { s.cpu with p := { s.cpu.p with i := b } } := rfl
@[simp] theorem State.setI_lat (b : Bool) : (s.setI b).lat = s.lat := rfl
@[simp] theorem State.setI_peek (b : Bool) (a : Word) : (s.setI b).peek a = s.peek a := rfl
@[simp] theorem logOf_setI (b : Bool) : logOf (s.setI b) = logOf s := rfl

@[simp] theorem State.peekStack_cpu : s.peekStack.cpu = { s.cpu with s := s.cpu.s - 1#8 } := by
  simp [State.peekStack, State.setS_cpu]

@[simp] theorem State.peekStack_peek (a : Word) : s.peekStack.peek a = s.peek a := by
  simp [State.peekStack]

@[simp] theorem State.peekStack_needReset : s.peekStack.lat.needReset = s.lat.needReset := by
  simp [State.peekStack]

@[simp] theorem logOf_peekStack : logOf s.peekStack = (.read, slotBelow s 0#8) :: logOf s := by
  simp [State.peekStack, State.stackAddr, slotBelow]

/-- The slots below the top are counted from an S one lower. -/
@[simp] theorem slotBelow_peekStack (k : Byte) : slotBelow s.peekStack k = slotBelow s (1#8 + k) := by
  simp [slotBelow, BitVec.sub_sub]

theorem logOf_loadPc (a : Word) : logOf (s.loadPc a) = (.read, a + 1#16) :: (.read, a) :: logOf s := by
  simp [State.loadPc_eq]

theorem State.loadPc_needReset (a : Word) : (s.loadPc a).lat.needReset = s.lat.needReset := by
  simp [State.loadPc_eq]

end Parts

section Reset

variable (s : State)

/-- `need_reset` is dropped before the first cycle. -/
def State.resetTaken : State := { s with lat := { s.lat with needReset := false } }

theorem State.resetTaken_cpu : s.resetTaken.cpu = s.cpu := rfl
theorem State.resetTaken_peek (a : Word) : s.resetTaken.peek a = s.peek a := rfl
theorem State.resetTaken_needReset : s.resetTaken.lat.needReset = false := rfl
theorem logOf_resetTaken : logOf s.resetTaken = logOf s := rfl

/-- The state after the first five reads, with I set: the vector is still to be read. -/
def State.resetStart : State :=
  ((s.resetTaken.dummyRead s.cpu.pc).dummyRead s.cpu.pc).peekStack.peekStack.peekStack.setI true

theorem State.resetSequence_eq : s.resetSequence = s.resetStart.loadPc resetVector := by
  simp [State.resetSequence, State.resetStart, State.resetTaken]

theorem State.resetStart_cpu :
    s.resetStart.cpu = { s.cpu with s := s.cpu.s - 3#8, p := { s.cpu.p with i := true } } := by
  simp [State.resetStart, State.resetTaken_cpu, BitVec.sub_sub]

theorem State.resetStart_peek (a : Word) : s.resetStart.peek a = s.peek a := by
  simp [State.resetStart, State.resetTaken_peek]

theorem State.resetStart_needReset : s.resetStart.lat.needReset = false := by
  simp [State.resetStart, State.resetTaken_needReset]

theorem logOf_resetStart : logOf s.resetStart = [(.read, slotBelow s 2#8), (.read, slotBelow s 1#8),
    (.read, slotBelow s 0#8), (.read, s.cpu.pc), (.read, s.cpu.pc)] ++ logOf s := by
  simp [State.resetStart, logOf_resetTaken, State.resetTaken_cpu, slotBelow, BitVec.sub_sub]

/-- The registers after a reset whose vector is given (R55, R220). -/
theorem State.resetSequence_cpu {lo hi : Byte} (low : s.peek 0xFFFC#16 = some lo) (high : s.peek 0xFFFD#16 = some hi) :
    s.resetSequence.cpu =
      { s.cpu with s := s.cpu.s - 3#8, p := { s.cpu.p with i := true }, pc := joinBytes hi lo } := by
  rw [State.resetSequence_eq, State.loadPc_cpu (lo := lo) (hi := hi), State.resetStart_cpu]
  · exact (s.resetStart_peek _).trans low
  · exact (s.resetStart_peek _).trans high

theorem State.resetSequence_needReset : s.resetSequence.lat.needReset = false := by
  rw [State.resetSequence_eq, State.loadPc_needReset, State.resetStart_needReset]

theorem logOf_resetSequence : logOf s.resetSequence =
    [(.read, 0xFFFD#16), (.read, 0xFFFC#16), (.read, slotBelow s 2#8), (.read, slotBelow s 1#8),
      (.read, slotBelow s 0#8), (.read, s.cpu.pc), (.read, s.cpu.pc)] ++ logOf s := by
  rw [State.resetSequence_eq, logOf_loadPc, logOf_resetStart]
  rfl

end Reset

/-- Settles O11: five reads and the read of the vector, which lies in memory on both buses. -/
theorem resetSequenceEffect : Obligations.ResetSequenceEffect := by
  intro s
  obtain ⟨lo, low⟩ := s.peek_high (a := 0xFFFC#16) (by decide)
  obtain ⟨hi, high⟩ := s.peek_high (a := 0xFFFD#16) (by decide)
  have memory : SameStore s s.resetSequence :=
    sameStore_reads.resetSequence s ⟨rfl, rfl, rfl, rfl, rfl, rfl⟩
  exact ⟨lo, hi, low, high, s.resetSequence_cpu low high, s.resetSequence_needReset, memory.sameMemory,
    logOf_resetSequence s⟩

/-! ## The first step (R221) -/

/-- The NES machine of construction with its queue drained: the Reset event is taken (R193, R194). -/
def State.powerOnDrained (m : RamInit) (k : Cart) (inp : Inputs) : State :=
  { State.construct ⟨.nes, .binary⟩ m k inp with
    queue := [Event.atEnd]
    lat := ⟨false, false, false, false, false, true⟩ }

theorem State.construct_drained (m : RamInit) (k : Cart) (inp : Inputs) :
    (State.construct ⟨.nes, .binary⟩ m k inp).handleEvents = some (State.powerOnDrained m k inp) := rfl

/-- No read or register change touches the queue. -/
theorem sameQueue_reads : ReadClosed (fun s t => t.queue = s.queue) where
  refl := fun _ => rfl
  trans := fun _ _ _ h k => k.trans h
  read := State.memRead_queue
  regs := fun _ _ => rfl

theorem State.resetSequence_queue (s : State) : s.resetSequence.queue = s.queue := sameQueue_reads.resetSequence s rfl

/-- The place in the frame gives the scanline and the dot. -/
theorem Ppu.place_of_framePos {p : Ppu} {n : Nat} (h : p.framePos = n) :
    p.scanline.val = n / 341 ∧ p.dot.val = n % 341 := by
  have small := p.dot.isLt
  unfold Ppu.framePos at h
  omega

/-- Settles O10: the drained queue asks for a reset, whose seven cycles move the PPU by 21 dots. -/
theorem firstStepIsReset : Obligations.FirstStepIsReset := by
  intro m k inp _
  have reset := step_of_needReset (State.construct_drained m k inp) rfl
  obtain ⟨new, log, cycles, devices, -⟩ := stepAdvancesClocks _ _ reset
  obtain ⟨-, place⟩ := devices rfl
  have seven : new.length = 7 := by
    have logged := (State.powerOnDrained m k inp).resetSequence_logged
    rw [State.logged, log, State.construct_busLog, List.append_nil] at logged
    exact logged
  have origin : (State.construct ⟨.nes, .binary⟩ m k inp).ppu.framePos = 0 := by simp [Ppu.framePos, Ppu.powerOn]
  rw [seven, origin] at place
  rw [seven] at cycles
  obtain ⟨scanline, dot⟩ := Ppu.place_of_framePos (n := 21) place
  have registers := (State.powerOnDrained m k inp).resetSequence_cpu (lo := k.readPrg 0xFFFC) (hi := k.readPrg 0xFFFD)
    rfl rfl
  have flags : (State.powerOnDrained m k inp).resetSequence.cpu.p = ⟨false, false, true, false, false, false⟩ :=
    congrArg Cpu.p registers
  refine ⟨_, reset, registers, ?_, cycles, Fin.ext scanline, Fin.ext dot, State.resetSequence_queue _,
    State.resetSequence_needReset _⟩
  rw [flags]
  decide

end Sys2Proof.Machine
end

section
/-! SUPPORT. The cycles of an instruction against the table: the length of its bus cycle sequence, class by class (R84,
R130, R229). -/

namespace Sys2Proof.Machine

open Sys2Proof.Claims

/-! ## The reads of the resolver (R84) -/

/-- The reads of a mode between its operand fetches and its effective address, apart from the one at the un-fixed
address (R82, R85, R86). -/
def pointerReads : Mode → Nat
  | .zpx | .zpy => 1
  | .izx => 3
  | .izy => 2
  | _ => 0

/-- The read at the un-fixed address that the modes with an index across pages make outside class `R` (R84). -/
def indexReads : Mode → Nat
  | .abx | .aby | .izy => 1
  | _ => 0

section Length

variable (i : Instr) (s : State) (b1 b2 : Byte)

theorem length_fetches : (fetches i s).length = i.operandCount := by
  simp [fetches]

/-- The read at the un-fixed address, by whether the index addition carries. -/
theorem length_indexRead (sum : Nat) (read : Access) :
    (if sum < 256 then [] else [read]).length = if 256 ≤ sum then 1 else 0 := by
  by_cases carry : 256 ≤ sum
  · rw [if_neg (Nat.not_lt.mpr carry), if_pos carry, List.length_singleton]
  · rw [if_pos (Nat.lt_of_not_le carry), if_neg carry, List.length_nil]

/-- In class `R` a page cross costs one read. -/
theorem length_resolverReads_read : (resolverReads true i s b1 b2).length =
    pointerReads i.mode + if crosses (indexing s i.mode b1 b2) then 1 else 0 := by
  unfold resolverReads
  cases i.mode
  case abx | aby | izy => simp [indexing, crosses, pointerReads, length_indexRead, Nat.add_comm 2]
  all_goals rfl

theorem length_resolverReads_store : (resolverReads false i s b1 b2).length =
    pointerReads i.mode + indexReads i.mode := by
  unfold resolverReads
  cases i.mode
  case abx | aby | izy => simp [indexing, pointerReads, indexReads]
  all_goals rfl

end Length

/-! ## The table by class and mode (R229) -/

section Table

variable {i : Instr}

theorem baseCycles_imm (cls : i.accessClass = .read) (imm : i.mode = .imm) :
    i.baseCycles = 1 + i.operandCount := by
  cases i <;> first
    | (cases cls; done)
    | (cases imm; done)
    | rfl

theorem baseCycles_read (cls : i.accessClass = .read) (mem : i.mode ≠ .imm) :
    i.baseCycles = 1 + i.operandCount + pointerReads i.mode + 1 := by
  cases i <;> first
    | (cases cls; done)
    | exact absurd rfl mem
    | rfl

theorem baseCycles_write (cls : i.accessClass = .write) :
    i.baseCycles = 1 + i.operandCount + pointerReads i.mode + indexReads i.mode + 1 := by
  cases i <;> cases cls <;> rfl

theorem baseCycles_rmw (cls : i.accessClass = .rmw) :
    i.baseCycles = 1 + i.operandCount + pointerReads i.mode + indexReads i.mode + 3 := by
  cases i <;> cases cls <;> rfl

theorem baseCycles_implied (cls : i.accessClass = .implied) : i.baseCycles = 2 := by
  cases i <;> cases cls <;> rfl

theorem baseCycles_branch (cls : i.accessClass = .branch) : i.baseCycles = 2 := by
  cases i <;> cases cls <;> rfl

end Table

/-! ## The length of an instruction's sequence (R90, R229) -/

section Sequence

variable {i : Instr} (s : State) (b1 b2 : Byte)

/-- The bus cycles listed for an instruction are, with the opcode fetch, as many as the table says (R229): a page cross
costs class `R` one read, a branch taken one, and two across a page (R84, R130). -/
theorem length_accesses (notBrk : i ≠ .brk) :
    (accesses i s b1 b2).length + 1 = i.baseCycles + extraCycles i s b1 b2 := by
  cases cls : i.accessClass with
  | read =>
    by_cases imm : i.mode = .imm
    · simp [accesses, extraCycles, cls, imm, length_fetches, indexing, crosses, baseCycles_imm cls imm, Nat.add_comm]
    · simp only [accesses, extraCycles, cls, imm, if_false, List.length_append, length_fetches,
        length_resolverReads_read, List.length_singleton, baseCycles_read cls imm]
      omega
  | write =>
    simp only [accesses, extraCycles, cls, List.length_append, length_fetches, length_resolverReads_store,
      List.length_singleton, baseCycles_write cls]
    omega
  | rmw =>
    simp only [accesses, extraCycles, cls, List.length_append, length_fetches, length_resolverReads_store,
      List.length_cons, List.length_nil, baseCycles_rmw cls]
    omega
  | implied => simp [accesses, extraCycles, cls, baseCycles_implied cls]
  | branch =>
    have count := operandCount_of_branch cls
    simp only [accesses, extraCycles, cls, baseCycles_branch cls]
    split
    · simp [length_fetches, count]
    · split <;> simp [length_fetches, count]
  | jump => cases i <;> cases cls <;> rfl
  | stack =>
    cases i <;> first
      | (cases cls; done)
      | exact absurd rfl notBrk
      | rfl

end Sequence

/-- BRK is the fetch of its padding byte and the interrupt entry (R143). -/
theorem State.softwareInterrupt_logged (s : State) : s.softwareInterrupt.logged = s.logged + 6 := by
  rw [State.softwareInterrupt, State.enterInterrupt_logged, State.fetch_logged]

/-- Settles O48: the length of the instruction's bus cycle sequence (`busCycleSequence`); BRK by its interrupt entry. -/
theorem cycleCounts : Obligations.CycleCounts := by
  intro i s t b1 b2 bytes noDma he
  by_cases brk : i = .brk
  · subst brk
    obtain rfl : s.softwareInterrupt = t := Host.Outcome.next.inj he
    rw [State.softwareInterrupt_logged]
    rfl
  · obtain ⟨u, hu, log⟩ := busCycleSequence i s b1 b2 brk bytes noDma
    obtain rfl : u = t := Host.Outcome.next.inj (hu.symm.trans he)
    rw [State.logged_of_log log, Nat.add_assoc, length_accesses s b1 b2 brk, Nat.add_assoc]

end Sys2Proof.Machine
end
